-- ==== Sys2Proof/Word.lean ====
section
/-!
DEFINITION. Word types of the Z6 and their plainest arithmetic (spec/00_scope.md R6, spec/07_isa_encoding.md R163).
-/

namespace Sys2Proof

/-- The content of one x or e register (R163). -/
abbrev Word := BitVec 64

/-- One byte of any memory of the package. -/
abbrev Byte := BitVec 8

/-- The content of one v register (R163). -/
abbrev VWord := BitVec 256

/-- An x or v register number. -/
abbrev Reg := Fin 32

/-- A predicate register or operand-extension register number. -/
abbrev Reg8 := Fin 8

/-- A ring handle hn (R163). -/
abbrev Handle := Fin 16

/-- An accumulator tile z0 to z3 (R164). -/
abbrev ZTile := Fin 4

end Sys2Proof
end

