-- ==== Sys2Proof/Syntax.lean ====
section
/-!
DEFINITION. The instructions of Alaov and the operations of the machine, one constructor per row of
spec/opcode_table.json. The first 178 are words (spec/07 R168 to R188); the other 119 are steps the machine takes by
itself (spec/95), which have no encoding. An operation's arguments name the item it acts on and whatever the agents
outside the package supply.
-/

namespace Sys2Proof

/-- The guard of a 32-bit instruction: P[p], or NOT P[p] when `neg` (R170). -/
structure Guard where
  neg : Bool
  p : Reg8
  deriving DecidableEq, Repr

/-- The unguarded case, GRD = 0 with NEG = 0 (R170). -/
def Guard.always : Guard := ⟨false, 0⟩

/-- Access width: 1, 2, 4 or 8 bytes (R185). -/
inductive Width where
  | b | h | w | d
  deriving DecidableEq, Repr

/-- The scopes of R124: thread, core, cluster, die, package, system. -/
inductive Scope where
  | t | c | k | d | p | s
  deriving DecidableEq, Repr

/-- The scopes an atomic can name (R185). -/
inductive AScope where
  | k | d | p | s
  deriving DecidableEq, Repr

/-- The four orderings of an atomic (R128). -/
inductive AOrd where
  | plain | acq | rel | ar
  deriving DecidableEq, Repr

/-- Conditions of CMP (R183, MAJ 0x01). -/
inductive Cc where
  | eq | ne | lt | ge | ltu | geu
  deriving DecidableEq, Repr

/-- Conditions of the signed CMPI (R183, MAJ 0x0C). -/
inductive CcS where
  | eq | ne | lt | ge
  deriving DecidableEq, Repr

/-- Conditions of the unsigned CMPI (R183, MAJ 0x0D). -/
inductive CcU where
  | ltu | geu
  deriving DecidableEq, Repr

/-- Integer lane types (R186). -/
inductive IType where
  | i8 | i16 | i32 | i64
  deriving DecidableEq, Repr

/-- Floating lane formats (R186). -/
inductive FType where
  | f64 | f32 | f16 | bf16
  deriving DecidableEq, Repr

/-- Lane types of VCMP and VRED (R186, MAJ 0x28). -/
inductive LType where
  | i8 | i16 | i32 | i64 | f64 | f32 | f16 | bf16
  deriving DecidableEq, Repr

/-- Conditions of VCMP (R186, MAJ 0x28). -/
inductive VCc where
  | eq | ne | lt | le | ltu | leu
  deriving DecidableEq, Repr

/-- One of the two sides of a ring (R185, R233). -/
inductive RSide where
  | filled | free
  deriving DecidableEq, Repr

/-- A packet of the fabric: the fields of its header (R329) and its payload. -/
structure Packet where
  ptype : Nat
  dest : Nat
  src : Nat
  job : Nat
  pgen : Nat
  cls : Nat
  prio : Nat
  route : Nat
  step : Nat
  len : Nat
  tag : Nat
  arg : Nat
  /-- The operation of an atomic or future packet, whose place in the packet the spec does not give (log entry 18: DESIGN CHOICE,
  safe): of an atomic 0 to 7 as R226 numbers the roots in the opcode map, 8 for ACASQ. -/
  op : Nat
  payload : List (BitVec 8)
  deriving DecidableEq, Repr

/-- A flit that arrives at a port (R331): which of the port's two gateways takes it, at which byte of its content the first packet
that begins in it starts, which the spec leaves open (log entry 33: DESIGN CHOICE, safe), what the peer returns of credit with it
(log entry 30: DESIGN CHOICE, unsafe), by the keys under which the port counts it, and its 256 bytes. -/
structure Flit where
  gateway : Bool
  start : Nat
  credit : List Nat
  bytes : List (BitVec 8)
  deriving DecidableEq, Repr

/-- What the host asks Ramzu for when it creates a partition (R363, spec/15 R347). -/
structure PartSpec where
  granules : List Nat
  stage2 : List Nat
  domains : Nat
  queues : Nat
  minSlots : Nat
  minFlits : Nat
  share : Nat
  job : Nat
  entry : Nat
  /-- The 4 KiB host pages that the IOMMU maps for its virtual function, with their write permission. -/
  iommu : List (Nat × Bool)
  deriving DecidableEq, Repr

/-- What training finds at a port: its lanes, whether its peer is a first-level Marnar switch, and the node number that the
peer reports (spec/15 R346 to R348). -/
structure PortUp where
  port : Nat
  lanes : Nat
  marnar : Bool
  node : Nat
  deriving DecidableEq, Repr

/-- What the straps, the fuses and the self test of a part leave (R27, spec/15 R346, R347): TOPO, STEPPING, CLK_MAX and CLK_FLOOR,
and for each die the clusters that are present and the channels that are usable. -/
structure Fuses where
  topo : Nat
  stepping : Nat
  clkMax : Nat
  clkFloor : Nat
  clusters : List Nat
  channels : List Nat
  /-- The birth counts of the monitors of each cluster, and what they count now (spec/21 R454): four of each. -/
  monitors : List (List Nat × List Nat)
  deriving DecidableEq, Repr

/-- Where a warm reset's cause lay (spec/21 R451), the clusters that fail its self test, and the ports that their saved settings do
not bring up (R452). -/
structure ResetCause where
  units : List Nat
  failing : List Nat
  ports : List Nat
  deriving DecidableEq, Repr

/-- A step of an engine command: the command's number, and which of the steps that it may take next it is (spec/05 R116). -/
structure EngineStep where
  command : Nat
  choice : Nat
  deriving DecidableEq, Repr

/-- What the protection of a structure finds (spec/21 R440). -/
inductive HardwareError where
  /-- An error that is corrected, or whose transfer is retried. -/
  | corrected
  /-- An uncorrectable error of a core's register files, return stores or loop states, or of its z tiles and latches, at the read that
  meets it. -/
  | read (c : Nat) (tile : Bool)
  /-- An uncorrectable error of a granule of CLS, a tile store or HBM, by its place. -/
  | granule (pa : Nat)
  /-- An uncorrectable error of an L1 line. -/
  | l1 (c line : Nat)
  /-- A parity error of an entry of a core's PLB, by its address; those of other caches are moves of a cache. -/
  | plb (c va : Nat)
  /-- An uncorrectable error of a line of a die's L2, of a partition. -/
  | l2Data (p die line : Nat)
  /-- An uncorrectable error of the tags or the state of the L2 slices of a memory group. -/
  | l2Tags (g : Nat)
  /-- An uncorrectable error of a cluster's future table, task pool or run queues. -/
  | table (cl : Nat)
  /-- An uncorrectable error of a memory of the control die. -/
  | control
  deriving DecidableEq, Repr

/-- Who asks Ramzu (spec/15 R345): the physical function, the virtual function of a partition, or in class 3 an endpoint of
another node, which is a fabric peer of the job of a partition here or of none. -/
inductive Requester where
  | pf
  | vf (p : Nat)
  | peer (endpoint : Nat) (p : Option Nat)
  deriving DecidableEq, Repr

/-- What an SPDM request asks for (spec/15 R344, R345, spec/16 R359): a measurement, the acceptance of a sealing secret, over
a session in which measurements 1, 2 and 5 were verified or not, the key of the selective IDE stream, or anything else. -/
inductive SpdmAsk where
  | measurement (index : Nat)
  | secret (key : List (BitVec 8)) (verified : Bool)
  | ideKey (key : List (BitVec 8))
  | other (request : List (BitVec 8))
  deriving DecidableEq, Repr

/-- What a restore request brings (spec/16 R362): the expected counter, the certificate chain, the image as read from its
storage endpoints, and whether they could be reached. -/
structure Restore where
  expected : Nat
  chain : List (BitVec 8)
  image : List (BitVec 8)
  reachable : Bool
  deriving DecidableEq, Repr

/-- One row of spec/opcode_table.json each, in its order. -/
inductive Instr where
  -- scalar arithmetic, R199 to R204
  | add (g : Guard) (d a b : Reg)
  | sub (g : Guard) (d a b : Reg)
  | and (g : Guard) (d a b : Reg)
  | or (g : Guard) (d a b : Reg)
  | xor (g : Guard) (d a b : Reg)
  | andn (g : Guard) (d a b : Reg)
  | sll (g : Guard) (d a b : Reg)
  | srl (g : Guard) (d a b : Reg)
  | sra (g : Guard) (d a b : Reg)
  | rol (g : Guard) (d a b : Reg)
  | min (g : Guard) (d a b : Reg)
  | max (g : Guard) (d a b : Reg)
  | minu (g : Guard) (d a b : Reg)
  | maxu (g : Guard) (d a b : Reg)
  | mul (g : Guard) (d a b : Reg)
  | mulh (g : Guard) (d a b : Reg)
  | mulhu (g : Guard) (d a b : Reg)
  | div (g : Guard) (d a b : Reg)
  | divu (g : Guard) (d a b : Reg)
  | rem (g : Guard) (d a b : Reg)
  | remu (g : Guard) (d a b : Reg)
  | clz (g : Guard) (d a : Reg)
  | ctz (g : Guard) (d a : Reg)
  | popc (g : Guard) (d a : Reg)
  | adx (g : Guard) (sh : Fin 5) (d a b : Reg)
  | cmp (g : Guard) (cc : Cc) (pd : Reg8) (a b : Reg)
  | cmpiSigned (g : Guard) (cc : CcS) (pd : Reg8) (a : Reg) (imm : BitVec 11)
  | cmpiUnsigned (g : Guard) (cc : CcU) (pd : Reg8) (a : Reg) (imm : BitVec 11)
  | madd (g : Guard) (e : Reg8) (d a b : Reg)
  | msub (g : Guard) (e : Reg8) (d a b : Reg)
  | bfx (g : Guard) (e : Reg8) (d a b : Reg)
  | bfi (g : Guard) (e : Reg8) (d a b : Reg)
  | addi (g : Guard) (d a : Reg) (imm : BitVec 11)
  | andi (g : Guard) (d a : Reg) (imm : BitVec 11)
  | ori (g : Guard) (d a : Reg) (imm : BitVec 11)
  | xori (g : Guard) (d a : Reg) (imm : BitVec 11)
  | slli (g : Guard) (d a : Reg) (sh : BitVec 6)
  | srli (g : Guard) (d a : Reg) (sh : BitVec 6)
  | srai (g : Guard) (d a : Reg) (sh : BitVec 6)
  | li (g : Guard) (d : Reg) (imm : BitVec 16)
  | lsh (g : Guard) (d : Reg) (imm : BitVec 16)
  | move (g : Guard) (ed : Reg8) (a : Reg)
  | movx (g : Guard) (d : Reg) (ea : Reg8)
  | sel (g : Guard) (p : Reg8) (d a b : Reg)
  -- control, R205 to R212
  | br (g : Guard) (off : BitVec 21)
  | call (g : Guard) (off : BitVec 21)
  | jr (g : Guard) (a : Reg)
  | callr (g : Guard) (a : Reg)
  | ret (g : Guard)
  | loop (g : Guard) (a : Reg) (len : BitVec 10)
  | loopi (g : Guard) (count : BitVec 11) (len : BitVec 10)
  | pand (g : Guard) (pd pa pb : Reg8)
  | por (g : Guard) (pd pa pb : Reg8)
  | pxor (g : Guard) (pd pa pb : Reg8)
  | pandn (g : Guard) (pd pa pb : Reg8)
  | porn (g : Guard) (pd pa pb : Reg8)
  | pget (g : Guard) (d : Reg)
  | pset (g : Guard) (a : Reg)
  -- memory and synchronisation, R218 to R241
  | ld (g : Guard) (w : Width) (z : Bool) (d a : Reg) (disp : BitVec 8)
  | ldAcq (g : Guard) (sc : Scope) (w : Width) (z : Bool) (d a : Reg) (disp : BitVec 5)
  | ldCon (g : Guard) (w : Width) (z : Bool) (d a : Reg) (disp : BitVec 5)
  | st (g : Guard) (w : Width) (home : Bool) (src a : Reg) (disp : BitVec 8)
  | stRel (g : Guard) (sc : Scope) (w : Width) (home : Bool) (src a : Reg) (disp : BitVec 5)
  | aadd (g : Guard) (o : AOrd) (sc : AScope) (home : Bool) (d a b : Reg)
  | amin (g : Guard) (o : AOrd) (sc : AScope) (home : Bool) (d a b : Reg)
  | amax (g : Guard) (o : AOrd) (sc : AScope) (home : Bool) (d a b : Reg)
  | aand (g : Guard) (o : AOrd) (sc : AScope) (home : Bool) (d a b : Reg)
  | aor (g : Guard) (o : AOrd) (sc : AScope) (home : Bool) (d a b : Reg)
  | axor (g : Guard) (o : AOrd) (sc : AScope) (home : Bool) (d a b : Reg)
  | aswap (g : Guard) (o : AOrd) (sc : AScope) (home : Bool) (d a b : Reg)
  | acas (g : Guard) (o : AOrd) (sc : AScope) (home : Bool) (d a b : Reg)
  | acasq (g : Guard) (o : AOrd) (sc : AScope) (d a b : Reg)
  | fence (g : Guard) (sc : Scope)
  | sealR (g : Guard) (a : Reg)
  | unsealR (g : Guard) (a : Reg)
  | waitv (g : Guard) (a b : Reg)
  | semp (g : Guard) (k : Fin 4) (a : Reg)
  | semv (g : Guard) (k : Fin 4) (a : Reg)
  | barw (g : Guard) (ch : Fin 4) (d a b : Reg)
  | rwait (g : Guard) (side : RSide) (h : Handle) (n : BitVec 11)
  | radv (g : Guard) (side : RSide) (h : Handle) (n : BitVec 11)
  | cwb (g : Guard) (a : Reg)
  | cinv (g : Guard) (a : Reg)
  | iinv (g : Guard) (a : Reg)
  | ifb (g : Guard)
  | ldr (g : Guard) (d : Reg) (h : Handle) (b : Reg)
  | str (g : Guard) (src : Reg) (h : Handle) (b : Reg)
  | ctset (g : Guard) (n : Fin 16) (a : Reg)
  | ctclr (g : Guard) (d : Reg) (n : Fin 16)
  -- vector, R242 to R259
  | vadd (g : Guard) (t : IType) (d a b : Reg)
  | vsub (g : Guard) (t : IType) (d a b : Reg)
  | vmul (g : Guard) (t : IType) (d a b : Reg)
  | vmin (g : Guard) (t : IType) (d a b : Reg)
  | vmax (g : Guard) (t : IType) (d a b : Reg)
  | vminu (g : Guard) (t : IType) (d a b : Reg)
  | vmaxu (g : Guard) (t : IType) (d a b : Reg)
  | vand (g : Guard) (t : IType) (d a b : Reg)
  | vor (g : Guard) (t : IType) (d a b : Reg)
  | vxor (g : Guard) (t : IType) (d a b : Reg)
  | vsll (g : Guard) (t : IType) (d a b : Reg)
  | vsrl (g : Guard) (t : IType) (d a b : Reg)
  | vsra (g : Guard) (t : IType) (d a b : Reg)
  | vadds (g : Guard) (t : IType) (d a b : Reg)
  | vsubs (g : Guard) (t : IType) (d a b : Reg)
  | vfadd (g : Guard) (t : FType) (d a b : Reg)
  | vfsub (g : Guard) (t : FType) (d a b : Reg)
  | vfmul (g : Guard) (t : FType) (d a b : Reg)
  | vfdiv (g : Guard) (t : FType) (d a b : Reg)
  | vfmin (g : Guard) (t : FType) (d a b : Reg)
  | vfmax (g : Guard) (t : FType) (d a b : Reg)
  | vfsqrt (g : Guard) (t : FType) (d a : Reg)
  | vfabs (g : Guard) (t : FType) (d a : Reg)
  | vfneg (g : Guard) (t : FType) (d a : Reg)
  | vfma (g : Guard) (t : FType) (d a b : Reg)
  | vfms (g : Guard) (t : FType) (d a b : Reg)
  | vfnma (g : Guard) (t : FType) (d a b : Reg)
  | vfnms (g : Guard) (t : FType) (d a b : Reg)
  | vcvt (g : Guard) (sr : Bool) (src dst : Fin 32) (d a : Reg)
  | vcmp (g : Guard) (cc : VCc) (t : LType) (all : Bool) (pd : Reg8) (a b : Reg)
  | vperm (g : Guard) (d a b : Reg)
  | vbcast (g : Guard) (t : IType) (d a : Reg)
  | vext (g : Guard) (t : IType) (d a b : Reg)
  | vins (g : Guard) (t : IType) (d a b : Reg)
  | vredSum (g : Guard) (t : LType) (d a : Reg)
  | vredMin (g : Guard) (t : LType) (d a : Reg)
  | vredMax (g : Guard) (t : LType) (d a : Reg)
  | vld (g : Guard) (d a : Reg) (disp : BitVec 11)
  | vst (g : Guard) (src a : Reg) (disp : BitVec 11)
  | vldr (g : Guard) (d : Reg) (h : Handle) (side : RSide) (slot : BitVec 5) (off : BitVec 6)
  | vstr (g : Guard) (src : Reg) (h : Handle) (side : RSide) (slot : BitVec 5) (off : BitVec 6)
  | vmsum (g : Guard) (d a b : Reg)
  | vrscl (g : Guard) (d a b : Reg)
  -- matrix, R260 to R280
  | mm (g : Guard) (pair : Fin 22) (z : ZTile) (u la : Bool) (a b vs : Reg)
  | mmr (g : Guard) (pair : Fin 22) (z : ZTile) (u : Bool) (b vs : Reg)
  | latchA (g : Guard) (a : Reg)
  | latchB (g : Guard) (a : Reg)
  | zld (g : Guard) (z : ZTile) (a : Reg) (fmt : Fin 32)
  | zst (g : Guard) (z : ZTile) (a : Reg) (fmt : Fin 32)
  | zclr (g : Guard) (z : ZTile)
  -- tasks, futures, messages and engines, R281 to R311
  | spawn (g : Guard) (inl restart linked single : Bool) (d a b : Reg)
  | touch (g : Guard) (d a : Reg)
  | touchQ (g : Guard) (d a : Reg)
  | resolve (g : Guard) (d a b : Reg)
  | poison (g : Guard) (d a b : Reg)
  | fcan (g : Guard) (d a : Reg)
  | frel (g : Guard) (a : Reg)
  | ftest (g : Guard) (pd : Reg8) (a : Reg)
  | fdec (g : Guard) (a : Reg)
  | glaunch (g : Guard) (d a b : Reg)
  | yield (g : Guard)
  | texit (g : Guard)
  | send (g : Guard) (d a b : Reg)
  | sendc (g : Guard) (d a : Reg)
  | eng (g : Guard) (d a : Reg)
  | rld (g : Guard) (w : Width) (d a : Reg)
  | rldF (g : Guard) (w : Width) (d a : Reg)
  | rst (g : Guard) (w : Width) (a b : Reg)
  -- system, R213 to R217
  | trap (g : Guard) (hi lo : Fin 32)
  | ebreak (g : Guard)
  | eret (g : Guard)
  | csrr (g : Guard) (d : Reg) (hi lo : Fin 32)
  | csrw (g : Guard) (src : Reg) (hi lo : Fin 32)
  | sleep (g : Guard)
  -- 16-bit forms, R171
  | cMov (d a : Reg)
  | cAdd (d a : Reg)
  | cSub (d a : Reg)
  | cAnd (d a : Reg)
  | cOr (d a : Reg)
  | cXor (d a : Reg)
  | cAddi (d : Reg) (imm : BitVec 6)
  | cLi (d : Reg) (imm : BitVec 6)
  | cSlli (d : Reg) (sh : BitVec 6)
  | cSrli (d : Reg) (sh : BitVec 6)
  | cLd (d a : Reg)
  | cSt (src a : Reg)
  | cBr (off : BitVec 11)
  | cRet
  | cTouch (d a : Reg)
  -- steps of the reference machine and of translation
  | migrationArrival (n : Nat)
  | bind (t a : Nat)
  | perform0 (t a : Nat)
  | performHome (t a : Nat)
  | complete (t a : Nat)
  | forward (p e l : Nat)
  | remove (p e l : Nat)
  | l1LineDrop (c p l : Nat)
  | plbRefill (c dom va : Nat)
  | translationWalk (p e va : Nat)
  | atomicUnitOperation (t a : Nat)
  | hostWriteToCachedLine (p iova : Nat) (data : List Byte)
  -- traps, preemption, sleep, barrier, matrix
  | trapEntry (t : Nat)
  | acklost (t a : Nat)
  | preempt (t : Nat)
  | taskPreemption (cl : Nat)
  | sleepTimeout (t : Nat)
  | sleepDepthDescent (c : Nat)
  | coreWake (c : Nat)
  | barrierArrival (t : Nat)
  | barrierCompletion (t : Nat)
  | barrierTimeout (t : Nat)
  | barrierWithdrawal (t : Nat)
  | latchCompletion (c : Nat) (latch : Bool)
  | matrixUnitCompletion (c : Nat)
  | pass (c : Nat) (south : Bool)
  -- messages and scheduling
  | messageReceipt (c : Nat)
  | handlerStart (c : Nat)
  | injectionQueueDrain (c : Nat)
  | dispatch (cl : Nat)
  | frameAllocation (cl : Nat)
  | tileFetchCompletion (cl tk : Nat)
  | runQueueAgeing (cl n : Nat)
  | workSteal (cl : Nat)
  -- futures
  | futureSpill (cl : Nat)
  | futureOperation (cl : Nat) (k : Option Packet)
  | futureAnswerOrWake (n : Nat) (k : Option Packet)
  | cancelNotice (cl : Nat)
  | exhaustionDetector (cl : Nat)
  -- the master distributor
  | freeResourceReport (cl : Nat)
  | launchRecordRead (p q : Nat)
  | queueMapping
  | recordAcceptance
  | sourcePriorityAgeing (src : Nat)
  | supervisorMove (p : Nat)
  | gangStart (n : Nat)
  | completionNotice
  | gangPreemption (src : Nat)
  -- engines
  | copy (x : EngineStep)
  | copyr (x : EngineStep)
  | gather (n e : Nat)
  | addv (n : Nat)
  | allgather (x : EngineStep)
  | allreduce (x : EngineStep)
  | cut (n : Nat)
  | engineCommandCompletion (n : Nat)
  | stippleTimeout (n : Nat)
  | copyOnWrite (p gr : Nat)
  | backgroundDrain (p : Nat)
  | cutTimeout (p : Nat)
  -- packets, links and ports
  | activeMessage (k : Packet)
  | codeCarryingMessage (k : Packet)
  | readRequest (k : Packet)
  | readReply (k : Packet)
  | write (k : Packet)
  | writeAcknowledgement (k : Packet)
  | atomic (k : Packet)
  | atomicReply (k : Packet)
  | collectiveData (k : Packet)
  | stippleBlock (k : Packet)
  | errorReply (k : Packet)
  | partitionFence (k : Packet)
  | management (k : Packet)
  | flitReceipt (port : Nat) (f : Flit)
  | replay (port seq : Nat)
  | portRetrain (port : Nat) (found : PortUp)
  | portDown (port : Nat)
  | keyRollover (port : Nat) (key : List Byte)
  -- configuration registers
  | lqNotify (p q v : Nat)
  | lqCfgWrite (p q v : Nat)
  | lqBaseWrite (p q v : Nat)
  | lqDomWrite (p q v : Nat)
  | errclr (p v : Nat)
  | plbinv (p v : Nat)
  | s1inv (p v : Nat)
  | tsareaWrite (cl v : Nat)
  | ringEnable (cl n v : Nat)
  | ringDisable (cl n v : Nat)
  | corecfgWrite (c v : Nat)
  | clssplitChange (c : Nat)
  | mxownChange (c : Nat)
  | h3Change (c : Nat)
  | srstateWrite (c v : Nat)
  | fstatWrite (t v : Nat)
  | hdomFdomWrite (p : Nat) (fabric : Bool) (v : Nat)
  | fspillbaseWrite (cl v : Nat)
  | registerWrite (p cl csr v : Nat)
  -- reliability, Ramzu and the host
  | coreKill (c : Nat)
  | selfTestCompletion (c : Nat) (pass : Bool)
  | channelTest (gr : Nat) (failing : List Nat)
  | mcheckDelivery (p : Nat)
  | supervisorRelaunch (p : Nat)
  | patrolScrubber (found : HardwareError)
  | ageingMonitorCheck (cl : Nat) (first second : Nat × Nat)
  | throttle (celsius watts : Nat)
  | warmReset (cause : ResetCause)
  | coldReset (fuses : Fuses) (image : List Byte) (up : List PortUp)
  | retrainingRequest (up : List PortUp)
  | partitionCreation (sp : PartSpec)
  | teardown (p : Nat)
  | spdmRequest (q : Requester) (r : SpdmAsk)
  | imageSubmission (p : Nat) (image : List Byte)
  | restoreRequest (p : Nat) (r : Restore)
  | tdispRequest (p : Nat) (run : Bool)
  | tdispErrorEntry (p : Nat)
  | stopInterfaceRequest (p : Nat)
  | dieToDieLinkFailure (gr : Option Nat)
  | linkDown (port : Nat)
  | arbitrationGrant (port : Nat)
  deriving DecidableEq, Repr

end Sys2Proof
end

