-- ==== Sys2Proof/WellFormed.lean ====
section
/-!
DEFINITION. The checks of spec/07 R172, R187 and spec/18 R387 that relate the fields of one instruction: a term that
fails one of them has no encoding, and the word that would carry it takes ILLEGAL.
-/

namespace Sys2Proof

/-- Ordering and scope of an atomic: the scope is reserved under the plain ordering (R185, R387 rows 0x1C and 0x20). -/
def AOrd.admits (o : AOrd) (sc : AScope) : Bool :=
  o != .plain || sc == .k

/-- The zero-extension flag of a load is reserved for the 8-byte width (R185, R387 row 0x18). -/
def Width.admitsZ (w : Width) (z : Bool) : Bool :=
  !(w == .d && z)

/-- Format codes of R141 that the wide class of VCVT converts between (R250). -/
def wideFormats : List Nat := [0x14, 0x00, 0x01, 0x02, 0x09, 0x08, 0x15, 0x16]

/-- The narrow float codes e4m3, e5m2, e3m2, e2m3 and e2m1 of R141. -/
def narrowFloats : List Nat := [0x03, 0x04, 0x05, 0x06, 0x07]

/-- The narrow integer codes n8, i4 and n4 of the block class of R250. -/
def blockInts : List Nat := [0x0A, 0x0B, 0x0C]

/-- Registers that hold 32 elements of a wide block format: four for f32 and i32, two for f16 and bf16 (R250). -/
def blockSpan (fmt : Nat) : Nat :=
  if fmt = 0x00 ∨ fmt = 0x15 then 4 else 2

/-- The conversion classes of R250. -/
inductive CvtClass where
  | wide | narrowFloat | narrowInt | widenFloat | widenInt | plane
  deriving DecidableEq, Repr

/-- The class of a source and target pair, none where R250 does not list the pair. -/
def cvtClass (src dst : Nat) : Option CvtClass :=
  if wideFormats.contains src && wideFormats.contains dst then
    if src = dst then none else some .wide
  else if [0x00, 0x01, 0x02].contains src && narrowFloats.contains dst then some .narrowFloat
  else if src = 0x15 && blockInts.contains dst then some .narrowInt
  else if narrowFloats.contains src && [0x00, 0x01, 0x02].contains dst then some .widenFloat
  else if blockInts.contains src && dst = 0x15 then some .widenInt
  else if 0x0D ≤ src ∧ src ≤ 0x13 ∧ dst = 0x09 then some .plane
  else none

/-- Source registers of a VCVT (R250). -/
def cvtSrcSpan (src dst : Nat) : Nat :=
  match cvtClass src dst with
  | some .narrowFloat | some .narrowInt => blockSpan src
  | _ => 1

/-- Destination registers of a VCVT (R250). -/
def cvtDstSpan (src dst : Nat) : Nat :=
  match cvtClass src dst with
  | some .widenFloat | some .widenInt => blockSpan dst
  | _ => 1

/-- A VCVT is assigned when R250 lists its pair and each operand starts at a multiple of its span. -/
def cvtAssigned (src dst d a : Nat) : Bool :=
  (cvtClass src dst).isSome && a % cvtSrcSpan src dst == 0 && d % cvtDstSpan src dst == 0

/-- Scale registers of a matrix pair: eight for e2m1.e2m1, four for the other narrow float pairs, none elsewhere
(R263). -/
def scaleSpan (pair : Nat) : Nat :=
  if pair = 9 then 8 else if 3 ≤ pair ∧ pair ≤ 11 then 4 else 0

/-- The field rules shared by MM and MMR: U only for pairs 12 and 13, VS only for pairs 3 to 11 and within the file,
B only for pairs 15 to 21 (R269, R280). -/
def mmFields (pair : Nat) (u : Bool) (b vs : Nat) : Bool :=
  (!u || pair == 12 || pair == 13)
    && (if scaleSpan pair = 0 then vs == 0 else vs + scaleSpan pair ≤ 32)
    && (15 ≤ pair || b == 0)

/-- Formats ZLD admits (R275). -/
def zldFormats : List Nat := [0x00, 0x01, 0x02, 0x15, 0x08, 0x09, 0x0A]

/-- Formats ZST admits (R275). -/
def zstFormats : List Nat :=
  [0x00, 0x01, 0x02, 0x03, 0x04, 0x05, 0x06, 0x07, 0x15, 0x08, 0x09, 0x0A, 0x0B, 0x0C]

/-- Integer lane types of VCMP and VRED. -/
def LType.isInt : LType → Bool
  | .i8 | .i16 | .i32 | .i64 => true
  | _ => false

/-- Conditions that only integer types admit (R186, MAJ 0x28). -/
def VCc.intOnly : VCc → Bool
  | .ltu | .leu => true
  | _ => false

/-- A first register of an even pair that is not x0 (R227, R281 for TOUCH.Q). -/
def pairDst (d : Reg) : Bool := d.val % 2 == 0 && d.val != 0

/-- Whether the fields of an instruction satisfy every rule between them. Every other constructor is well formed
whatever its fields hold: their types already keep each field in its range. -/
def Instr.wf : Instr → Bool
  | .ld _ w z _ _ _ => w.admitsZ z
  | .ldAcq _ _ w z _ _ _ => w.admitsZ z
  | .ldCon _ w z _ _ _ => w.admitsZ z
  | .aadd _ o sc _ _ _ _ => o.admits sc
  | .amin _ o sc _ _ _ _ => o.admits sc
  | .amax _ o sc _ _ _ _ => o.admits sc
  | .aand _ o sc _ _ _ _ => o.admits sc
  | .aor _ o sc _ _ _ _ => o.admits sc
  | .axor _ o sc _ _ _ _ => o.admits sc
  | .aswap _ o sc _ _ _ _ => o.admits sc
  | .acas _ o sc _ _ _ _ => o.admits sc
  | .acasq _ o sc d _ b => o.admits sc && pairDst d && b.val % 2 == 0
  | .vcvt _ _ src dst d a => cvtAssigned src.val dst.val d.val a.val
  | .vcmp _ cc t _ _ _ _ => !cc.intOnly || t.isInt
  | .mm _ pair _ u la a b vs => mmFields pair.val u b.val vs.val && (!la || a.val == 0)
  | .mmr _ pair _ u b vs => mmFields pair.val u b.val vs.val
  | .zld _ _ _ fmt => zldFormats.contains fmt.val
  | .zst _ _ _ fmt => zstFormats.contains fmt.val
  | .touchQ _ d _ => pairDst d
  | _ => true

/-- Whether a constructor stands for an instruction word (rows 1 to 178 of the table) and not for an operation of the
machine. -/
def Instr.isWord : Instr → Bool
  | .migrationArrival .. | .bind .. | .perform0 .. | .performHome .. | .complete .. | .forward .. | .remove ..
  | .l1LineDrop .. | .plbRefill .. | .translationWalk .. | .atomicUnitOperation .. | .hostWriteToCachedLine ..
  | .trapEntry .. | .acklost .. | .preempt .. | .taskPreemption .. | .sleepTimeout .. | .sleepDepthDescent ..
  | .coreWake .. | .barrierArrival .. | .barrierCompletion .. | .barrierTimeout .. | .barrierWithdrawal ..
  | .latchCompletion .. | .matrixUnitCompletion .. | .pass .. | .messageReceipt .. | .handlerStart ..
  | .injectionQueueDrain .. | .dispatch .. | .frameAllocation .. | .tileFetchCompletion .. | .runQueueAgeing ..
  | .workSteal .. | .futureSpill .. | .futureOperation .. | .futureAnswerOrWake .. | .cancelNotice ..
  | .exhaustionDetector .. | .freeResourceReport .. | .launchRecordRead .. | .queueMapping | .recordAcceptance
  | .sourcePriorityAgeing .. | .supervisorMove .. | .gangStart .. | .completionNotice | .gangPreemption ..
  | .copy .. | .copyr .. | .gather .. | .addv .. | .allgather .. | .allreduce .. | .cut ..
  | .engineCommandCompletion .. | .stippleTimeout .. | .copyOnWrite .. | .backgroundDrain .. | .cutTimeout ..
  | .activeMessage .. | .codeCarryingMessage .. | .readRequest .. | .readReply .. | .write ..
  | .writeAcknowledgement .. | .atomic .. | .atomicReply .. | .collectiveData .. | .stippleBlock .. | .errorReply ..
  | .partitionFence .. | .management .. | .flitReceipt .. | .replay .. | .portRetrain .. | .portDown ..
  | .keyRollover .. | .lqNotify .. | .lqCfgWrite .. | .lqBaseWrite .. | .lqDomWrite .. | .errclr .. | .plbinv ..
  | .s1inv .. | .tsareaWrite .. | .ringEnable .. | .ringDisable .. | .corecfgWrite .. | .clssplitChange ..
  | .mxownChange .. | .h3Change .. | .srstateWrite .. | .fstatWrite .. | .hdomFdomWrite .. | .fspillbaseWrite ..
  | .registerWrite .. | .coreKill .. | .selfTestCompletion .. | .channelTest .. | .mcheckDelivery ..
  | .supervisorRelaunch .. | .patrolScrubber .. | .ageingMonitorCheck .. | .throttle .. | .warmReset .. | .coldReset ..
  | .retrainingRequest .. | .partitionCreation .. | .teardown .. | .spdmRequest .. | .imageSubmission ..
  | .restoreRequest .. | .tdispRequest .. | .tdispErrorEntry .. | .stopInterfaceRequest .. | .dieToDieLinkFailure ..
  | .linkDown .. | .arbitrationGrant .. => false
  | _ => true

end Sys2Proof
end

