-- ==== Sys2Proof/Decode.lean ====
section
/-!
DEFINITION. Decoding of instruction words, total on any bytes, and after it the encoder, both from the encoding tables
of spec/07 R168 to R188 (and R232, R228, R239, R250, R269, R275, R281 for the words those rows refer to).
-/

namespace Sys2Proof

/-- The split every 32-bit word shares (R169): F or the high half of imm11, B or its low half, A, D, NEG, GRD, MAJ. -/
structure Fields where
  f : Fin 64
  b : Fin 32
  a : Fin 32
  d : Fin 32
  n : Fin 2
  q : Fin 8
  maj : Fin 64
  deriving DecidableEq, Repr

/-- The 32-bit word of a field split; bit 0 is 1 (R168, R169). -/
def Fields.pack (x : Fields) : Nat :=
  x.f.val * 2 ^ 26 + x.b.val * 2 ^ 21 + x.a.val * 2 ^ 16 + x.d.val * 2 ^ 11 + x.n.val * 2 ^ 10 + x.q.val * 2 ^ 7
    + x.maj.val * 2 + 1

/-- The field split of a 32-bit word (R169). -/
def Fields.unpack (w : Nat) : Fields where
  f := Fin.ofNat 64 (w / 2 ^ 26)
  b := Fin.ofNat 32 (w / 2 ^ 21)
  a := Fin.ofNat 32 (w / 2 ^ 16)
  d := Fin.ofNat 32 (w / 2 ^ 11)
  n := Fin.ofNat 2 (w / 2 ^ 10)
  q := Fin.ofNat 8 (w / 2 ^ 7)
  maj := Fin.ofNat 64 (w / 2)

/-- The guard of a 32-bit word (R170). -/
def Fields.guard (x : Fields) : Guard := ⟨x.n == 1, x.q⟩

/-- imm11 of an I or S form (R169). -/
def Fields.imm11 (x : Fields) : BitVec 11 := BitVec.ofNat 11 (x.f.val * 32 + x.b.val)

/-- The 16-bit immediate of LI and LSH: [15:5] from imm11, [4:0] from A (R183). -/
def Fields.imm16 (x : Fields) : BitVec 16 := BitVec.ofNat 16 ((x.f.val * 32 + x.b.val) * 32 + x.a.val)

/-- off21 of a B form (R169). -/
def Fields.off21 (x : Fields) : BitVec 21 :=
  BitVec.ofNat 21 (((x.f.val * 32 + x.b.val) * 32 + x.a.val) * 32 + x.d.val)

/-- Low three bits of a register field that names a p or e register. -/
def low3 (r : Fin 32) : Reg8 := Fin.ofNat 8 r.val

/-- Low four bits of a register field that names a handle or a contour register. -/
def low4 (r : Fin 32) : Fin 16 := Fin.ofNat 16 r.val

/-- Low two bits of a register field that names a tile. -/
def low2 (r : Fin 32) : ZTile := Fin.ofNat 4 r.val

/-- Width codes of R185. -/
def Width.ofCode (n : Nat) : Width :=
  if n = 0 then .b else if n = 1 then .h else if n = 2 then .w else .d

/-- Scope codes of R185. -/
def Scope.ofCode (n : Nat) : Scope :=
  if n = 0 then .t else if n = 1 then .c else if n = 2 then .k else if n = 3 then .d else if n = 4 then .p else .s

/-- Scope codes of the atomics (R185). -/
def AScope.ofCode (n : Nat) : AScope :=
  if n = 0 then .k else if n = 1 then .d else if n = 2 then .p else .s

/-- Ordering codes of the atomics (R185). -/
def AOrd.ofCode (n : Nat) : AOrd :=
  if n = 0 then .plain else if n = 1 then .acq else if n = 2 then .rel else .ar

/-- Integer type codes of R186. -/
def IType.ofCode (n : Nat) : IType :=
  if n = 0 then .i8 else if n = 1 then .i16 else if n = 2 then .i32 else .i64

/-- Floating format codes of R186. -/
def FType.ofCode (n : Nat) : FType :=
  if n = 0 then .f64 else if n = 1 then .f32 else if n = 2 then .f16 else .bf16

/-- Lane type codes of MAJ 0x28 (R186). -/
def LType.ofCode (n : Nat) : LType :=
  if n = 0 then .i8 else if n = 1 then .i16 else if n = 2 then .i32 else if n = 3 then .i64
  else if n = 4 then .f64 else if n = 5 then .f32 else if n = 6 then .f16 else .bf16

/-- Condition codes of MAJ 0x28 (R186); 6 and 7 are not assigned. -/
def VCc.ofCode (n : Nat) : Option VCc :=
  if n = 0 then some .eq else if n = 1 then some .ne else if n = 2 then some .lt else if n = 3 then some .le
  else if n = 4 then some .ltu else if n = 5 then some .leu else none

/-- Ring sides of R232: rd is the filled side, wr the free side. -/
def RSide.ofCode (n : Nat) : RSide := if n = 0 then .filled else .free

/-- The low bit of a number as a flag. -/
def flag (n : Nat) : Bool := n % 2 == 1

/-- MAJ 0x00 (R183). -/
def decodeAlu (x : Fields) : Option Instr :=
  let g := x.guard
  match x.f.val with
  | 0 => some (.add g x.d x.a x.b)
  | 1 => some (.sub g x.d x.a x.b)
  | 2 => some (.and g x.d x.a x.b)
  | 3 => some (.or g x.d x.a x.b)
  | 4 => some (.xor g x.d x.a x.b)
  | 5 => some (.andn g x.d x.a x.b)
  | 6 => some (.sll g x.d x.a x.b)
  | 7 => some (.srl g x.d x.a x.b)
  | 8 => some (.sra g x.d x.a x.b)
  | 9 => some (.rol g x.d x.a x.b)
  | 10 => some (.min g x.d x.a x.b)
  | 11 => some (.max g x.d x.a x.b)
  | 12 => some (.minu g x.d x.a x.b)
  | 13 => some (.maxu g x.d x.a x.b)
  | 14 => some (.mul g x.d x.a x.b)
  | 15 => some (.mulh g x.d x.a x.b)
  | 16 => some (.mulhu g x.d x.a x.b)
  | 17 => some (.div g x.d x.a x.b)
  | 18 => some (.divu g x.d x.a x.b)
  | 19 => some (.rem g x.d x.a x.b)
  | 20 => some (.remu g x.d x.a x.b)
  | 21 => if x.b = 0 then some (.clz g x.d x.a) else none
  | 22 => if x.b = 0 then some (.ctz g x.d x.a) else none
  | 23 => if x.b = 0 then some (.popc g x.d x.a) else none
  | 24 => some (.adx g 0 x.d x.a x.b)
  | 25 => some (.adx g 1 x.d x.a x.b)
  | 26 => some (.adx g 2 x.d x.a x.b)
  | 27 => some (.adx g 3 x.d x.a x.b)
  | 28 => some (.adx g 4 x.d x.a x.b)
  | _ => none

/-- MAJ 0x01 (R183). -/
def decodeCmp (x : Fields) : Option Instr :=
  if 8 ≤ x.d.val then none else
  match x.f.val with
  | 0 => some (.cmp x.guard .eq (low3 x.d) x.a x.b)
  | 1 => some (.cmp x.guard .ne (low3 x.d) x.a x.b)
  | 2 => some (.cmp x.guard .lt (low3 x.d) x.a x.b)
  | 3 => some (.cmp x.guard .ge (low3 x.d) x.a x.b)
  | 4 => some (.cmp x.guard .ltu (low3 x.d) x.a x.b)
  | 5 => some (.cmp x.guard .geu (low3 x.d) x.a x.b)
  | _ => none

/-- MAJ 0x02 (R183). -/
def decodeExt (x : Fields) : Option Instr :=
  let e : Reg8 := Fin.ofNat 8 x.f.val
  match x.f.val / 8 with
  | 0 => some (.madd x.guard e x.d x.a x.b)
  | 1 => some (.msub x.guard e x.d x.a x.b)
  | 2 => some (.bfx x.guard e x.d x.a x.b)
  | 3 => some (.bfi x.guard e x.d x.a x.b)
  | _ => none

/-- The shift forms of MAJ 0x07 to 0x09: imm11[10:6] is reserved (R183). -/
def decodeShift (x : Fields) (mk : Guard → Reg → Reg → BitVec 6 → Instr) : Option Instr :=
  if 2 ≤ x.f.val then none else some (mk x.guard x.d x.a (BitVec.ofNat 6 (x.f.val * 32 + x.b.val)))

/-- MAJ 0x0C (R183). -/
def decodeCmpiS (x : Fields) : Option Instr :=
  match x.d.val / 8 with
  | 0 => some (.cmpiSigned x.guard .eq (low3 x.d) x.a x.imm11)
  | 1 => some (.cmpiSigned x.guard .ne (low3 x.d) x.a x.imm11)
  | 2 => some (.cmpiSigned x.guard .lt (low3 x.d) x.a x.imm11)
  | _ => some (.cmpiSigned x.guard .ge (low3 x.d) x.a x.imm11)

/-- MAJ 0x0D (R183). -/
def decodeCmpiU (x : Fields) : Option Instr :=
  match x.d.val / 8 with
  | 0 => some (.cmpiUnsigned x.guard .ltu (low3 x.d) x.a x.imm11)
  | 1 => some (.cmpiUnsigned x.guard .geu (low3 x.d) x.a x.imm11)
  | _ => none

/-- MAJ 0x0E (R183). -/
def decodeMove (x : Fields) : Option Instr :=
  match x.f.val with
  | 0 => if x.b = 0 ∧ x.d.val < 8 then some (.move x.guard (low3 x.d) x.a) else none
  | 1 => if x.b = 0 ∧ x.a.val < 8 then some (.movx x.guard x.d (low3 x.a)) else none
  | 8 => some (.sel x.guard 0 x.d x.a x.b)
  | 9 => some (.sel x.guard 1 x.d x.a x.b)
  | 10 => some (.sel x.guard 2 x.d x.a x.b)
  | 11 => some (.sel x.guard 3 x.d x.a x.b)
  | 12 => some (.sel x.guard 4 x.d x.a x.b)
  | 13 => some (.sel x.guard 5 x.d x.a x.b)
  | 14 => some (.sel x.guard 6 x.d x.a x.b)
  | 15 => some (.sel x.guard 7 x.d x.a x.b)
  | _ => none

/-- MAJ 0x12 (R184). -/
def decodeJump (x : Fields) : Option Instr :=
  match x.f.val with
  | 0 => if x.b = 0 ∧ x.d = 0 then some (.jr x.guard x.a) else none
  | 1 => if x.b = 0 ∧ x.d = 0 then some (.callr x.guard x.a) else none
  | 2 => if x.b = 0 ∧ x.a = 0 ∧ x.d = 0 then some (.ret x.guard) else none
  | _ => none

/-- The two-operand predicate forms of MAJ 0x15: every field names a predicate (R184). -/
def decodePred3 (x : Fields) (mk : Guard → Reg8 → Reg8 → Reg8 → Instr) : Option Instr :=
  if x.d.val < 8 ∧ x.a.val < 8 ∧ x.b.val < 8 then some (mk x.guard (low3 x.d) (low3 x.a) (low3 x.b)) else none

/-- MAJ 0x15 (R184). -/
def decodePred (x : Fields) : Option Instr :=
  match x.f.val with
  | 0 => decodePred3 x .pand
  | 1 => decodePred3 x .por
  | 2 => decodePred3 x .pxor
  | 3 => decodePred3 x .pandn
  | 4 => decodePred3 x .porn
  | 5 => if x.a = 0 ∧ x.b = 0 then some (.pget x.guard x.d) else none
  | 6 => if x.d = 0 ∧ x.b = 0 then some (.pset x.guard x.a) else none
  | _ => none

/-- MAJ 0x18: W is imm11[10:9], Z imm11[8], the displacement imm11[7:0] (R185). -/
def decodeLd (x : Fields) : Option Instr :=
  some (.ld x.guard (.ofCode (x.f.val / 16)) (flag (x.f.val / 8)) x.d x.a (BitVec.ofNat 8 (x.f.val * 32 + x.b.val)))

/-- MAJ 0x19 (R185). -/
def decodeSt (x : Fields) : Option Instr :=
  some (.st x.guard (.ofCode (x.f.val / 16)) (flag (x.f.val / 8)) x.d x.a (BitVec.ofNat 8 (x.f.val * 32 + x.b.val)))

/-- MAJ 0x1A: imm11[7:5] is the scope, 6 the consume form (R185). -/
def decodeLdOrd (x : Fields) : Option Instr :=
  let w := Width.ofCode (x.f.val / 16)
  let z := flag (x.f.val / 8)
  let disp := BitVec.ofNat 5 x.b.val
  match x.f.val % 8 with
  | 6 => some (.ldCon x.guard w z x.d x.a disp)
  | 7 => none
  | c => some (.ldAcq x.guard (.ofCode c) w z x.d x.a disp)

/-- MAJ 0x1B (R185). -/
def decodeStRel (x : Fields) : Option Instr :=
  if 6 ≤ x.f.val % 8 then none else
  some (.stRel x.guard (.ofCode (x.f.val % 8)) (.ofCode (x.f.val / 16)) (flag (x.f.val / 8)) x.d x.a
    (BitVec.ofNat 5 x.b.val))

/-- MAJ 0x1C to 0x1F: F[5:3] the operation, F[2] G, F[1:0] the scope (R185). -/
def decodeAtomic (x : Fields) (o : AOrd) : Option Instr :=
  let sc := AScope.ofCode (x.f.val % 4)
  let home := flag (x.f.val / 4)
  match x.f.val / 8 with
  | 0 => some (.aadd x.guard o sc home x.d x.a x.b)
  | 1 => some (.amin x.guard o sc home x.d x.a x.b)
  | 2 => some (.amax x.guard o sc home x.d x.a x.b)
  | 3 => some (.aand x.guard o sc home x.d x.a x.b)
  | 4 => some (.aor x.guard o sc home x.d x.a x.b)
  | 5 => some (.axor x.guard o sc home x.d x.a x.b)
  | 6 => some (.aswap x.guard o sc home x.d x.a x.b)
  | _ => some (.acas x.guard o sc home x.d x.a x.b)

/-- MAJ 0x20 (R185, R227, R228). -/
def decodeSync (x : Fields) : Option Instr :=
  let g := x.guard
  let z := x.d = 0 ∧ x.a = 0 ∧ x.b = 0
  match x.f.val with
  | 0 => if z then some (.fence g .t) else none
  | 1 => if z then some (.fence g .c) else none
  | 2 => if z then some (.fence g .k) else none
  | 3 => if z then some (.fence g .d) else none
  | 4 => if z then some (.fence g .p) else none
  | 5 => if z then some (.fence g .s) else none
  | 8 => if x.d = 0 ∧ x.b = 0 then some (.sealR g x.a) else none
  | 9 => if x.d = 0 ∧ x.b = 0 then some (.unsealR g x.a) else none
  | 12 => if x.d = 0 then some (.waitv g x.a x.b) else none
  | 16 => if x.d = 0 ∧ x.b = 0 then some (.semp g 0 x.a) else none
  | 17 => if x.d = 0 ∧ x.b = 0 then some (.semp g 1 x.a) else none
  | 18 => if x.d = 0 ∧ x.b = 0 then some (.semp g 2 x.a) else none
  | 19 => if x.d = 0 ∧ x.b = 0 then some (.semp g 3 x.a) else none
  | 20 => if x.d = 0 ∧ x.b = 0 then some (.semv g 0 x.a) else none
  | 21 => if x.d = 0 ∧ x.b = 0 then some (.semv g 1 x.a) else none
  | 22 => if x.d = 0 ∧ x.b = 0 then some (.semv g 2 x.a) else none
  | 23 => if x.d = 0 ∧ x.b = 0 then some (.semv g 3 x.a) else none
  | 24 => some (.barw g 0 x.d x.a x.b)
  | 25 => some (.barw g 1 x.d x.a x.b)
  | 26 => some (.barw g 2 x.d x.a x.b)
  | 27 => some (.barw g 3 x.d x.a x.b)
  | 32 => some (.acasq g .plain .k x.d x.a x.b)
  | 33 => some (.acasq g .plain .d x.d x.a x.b)
  | 34 => some (.acasq g .plain .p x.d x.a x.b)
  | 35 => some (.acasq g .plain .s x.d x.a x.b)
  | 36 => some (.acasq g .acq .k x.d x.a x.b)
  | 37 => some (.acasq g .acq .d x.d x.a x.b)
  | 38 => some (.acasq g .acq .p x.d x.a x.b)
  | 39 => some (.acasq g .acq .s x.d x.a x.b)
  | 40 => some (.acasq g .rel .k x.d x.a x.b)
  | 41 => some (.acasq g .rel .d x.d x.a x.b)
  | 42 => some (.acasq g .rel .p x.d x.a x.b)
  | 43 => some (.acasq g .rel .s x.d x.a x.b)
  | 44 => some (.acasq g .ar .k x.d x.a x.b)
  | 45 => some (.acasq g .ar .d x.d x.a x.b)
  | 46 => some (.acasq g .ar .p x.d x.a x.b)
  | 47 => some (.acasq g .ar .s x.d x.a x.b)
  | _ => none

/-- MAJ 0x21 and 0x22: D[4] the side, D[3:0] the handle, A reserved (R185, R232). -/
def decodeRing (x : Fields) (mk : Guard → RSide → Handle → BitVec 11 → Instr) : Option Instr :=
  if x.a = 0 then some (mk x.guard (.ofCode (x.d.val / 16)) (low4 x.d) x.imm11) else none

/-- MAJ 0x23 (R185, R232, R237). -/
def decodeCache (x : Fields) : Option Instr :=
  let g := x.guard
  match x.f.val with
  | 0 => if x.d = 0 ∧ x.b = 0 then some (.cwb g x.a) else none
  | 1 => if x.d = 0 ∧ x.b = 0 then some (.cinv g x.a) else none
  | 2 => if x.d = 0 ∧ x.b = 0 then some (.iinv g x.a) else none
  | 3 => if x.d = 0 ∧ x.a = 0 ∧ x.b = 0 then some (.ifb g) else none
  | 8 => if x.a.val < 16 then some (.ldr g x.d (low4 x.a) x.b) else none
  | 9 => if x.a.val < 16 then some (.str g x.d (low4 x.a) x.b) else none
  | _ => none

/-- MAJ 0x24 (R186). -/
def decodeVInt (x : Fields) : Option Instr :=
  let t := IType.ofCode (x.f.val % 4)
  match x.f.val / 4 with
  | 0 => some (.vadd x.guard t x.d x.a x.b)
  | 1 => some (.vsub x.guard t x.d x.a x.b)
  | 2 => some (.vmul x.guard t x.d x.a x.b)
  | 3 => some (.vmin x.guard t x.d x.a x.b)
  | 4 => some (.vmax x.guard t x.d x.a x.b)
  | 5 => some (.vminu x.guard t x.d x.a x.b)
  | 6 => some (.vmaxu x.guard t x.d x.a x.b)
  | 7 => some (.vand x.guard t x.d x.a x.b)
  | 8 => some (.vor x.guard t x.d x.a x.b)
  | 9 => some (.vxor x.guard t x.d x.a x.b)
  | 10 => some (.vsll x.guard t x.d x.a x.b)
  | 11 => some (.vsrl x.guard t x.d x.a x.b)
  | 12 => some (.vsra x.guard t x.d x.a x.b)
  | 13 => some (.vadds x.guard t x.d x.a x.b)
  | 14 => some (.vsubs x.guard t x.d x.a x.b)
  | _ => none

/-- MAJ 0x25 (R186). -/
def decodeVFloat (x : Fields) : Option Instr :=
  let t := FType.ofCode (x.f.val % 4)
  match x.f.val / 4 with
  | 0 => some (.vfadd x.guard t x.d x.a x.b)
  | 1 => some (.vfsub x.guard t x.d x.a x.b)
  | 2 => some (.vfmul x.guard t x.d x.a x.b)
  | 3 => some (.vfdiv x.guard t x.d x.a x.b)
  | 4 => some (.vfmin x.guard t x.d x.a x.b)
  | 5 => some (.vfmax x.guard t x.d x.a x.b)
  | 6 => if x.b = 0 then some (.vfsqrt x.guard t x.d x.a) else none
  | 7 => if x.b = 0 then some (.vfabs x.guard t x.d x.a) else none
  | 8 => if x.b = 0 then some (.vfneg x.guard t x.d x.a) else none
  | _ => none

/-- MAJ 0x26 (R186). -/
def decodeVFma (x : Fields) : Option Instr :=
  let t := FType.ofCode (x.f.val % 4)
  match x.f.val / 4 with
  | 0 => some (.vfma x.guard t x.d x.a x.b)
  | 1 => some (.vfms x.guard t x.d x.a x.b)
  | 2 => some (.vfnma x.guard t x.d x.a x.b)
  | 3 => some (.vfnms x.guard t x.d x.a x.b)
  | _ => none

/-- MAJ 0x27: F[5] stochastic, F[4:0] the source code, B the target code (R186, R250). -/
def decodeVCvt (x : Fields) : Option Instr :=
  some (.vcvt x.guard (flag (x.f.val / 32)) (Fin.ofNat 32 x.f.val) x.b x.d x.a)

/-- MAJ 0x28 (R186). -/
def decodeVCmp (x : Fields) : Option Instr :=
  if 16 ≤ x.d.val then none else
  (VCc.ofCode (x.f.val / 8)).map fun cc =>
    .vcmp x.guard cc (.ofCode (x.f.val % 8)) (flag (x.d.val / 8)) (low3 x.d) x.a x.b

/-- MAJ 0x29 (R186). -/
def decodeVMove (x : Fields) : Option Instr :=
  let t := IType.ofCode (x.f.val % 4)
  match x.f.val / 4 with
  | 0 => if x.f.val = 0 then some (.vperm x.guard x.d x.a x.b) else none
  | 1 => if x.b = 0 then some (.vbcast x.guard t x.d x.a) else none
  | 2 => some (.vext x.guard t x.d x.a x.b)
  | 3 => some (.vins x.guard t x.d x.a x.b)
  | _ => none

/-- MAJ 0x2A (R186). -/
def decodeVRed (x : Fields) : Option Instr :=
  let t := LType.ofCode (x.f.val % 8)
  if x.b = 0 then
    match x.f.val / 8 with
    | 0 => some (.vredSum x.guard t x.d x.a)
    | 1 => some (.vredMin x.guard t x.d x.a)
    | 2 => some (.vredMax x.guard t x.d x.a)
    | _ => none
  else none

/-- MAJ 0x2D and 0x2E: imm11[10:6] the slot, imm11[5:0] the offset, A[4] the side, A[3:0] the handle (R186). -/
def decodeVRing (x : Fields) (mk : Guard → Reg → Handle → RSide → BitVec 5 → BitVec 6 → Instr) : Option Instr :=
  some (mk x.guard x.d (low4 x.a) (.ofCode (x.a.val / 16)) (BitVec.ofNat 5 (x.f.val / 2))
    (BitVec.ofNat 6 (x.f.val * 32 + x.b.val)))

/-- MAJ 0x2F (R186). -/
def decodeVMask (x : Fields) : Option Instr :=
  match x.f.val with
  | 0 => some (.vmsum x.guard x.d x.a x.b)
  | 1 => some (.vrscl x.guard x.d x.a x.b)
  | _ => none

/-- MAJ 0x30 to 0x3A: the M form, whose MAJ and F1 give the pair (R187, R269). -/
def decodeMm (x : Fields) : Option Instr :=
  let pair : Fin 22 := Fin.ofNat 22 (2 * (x.maj.val - 48) + x.f.val % 2)
  let vs : Reg := Fin.ofNat 32 (x.f.val / 2)
  let u := flag (x.d.val / 4)
  let la := flag (x.d.val / 8)
  if 16 ≤ x.d.val then
    if la ∧ x.a = 0 then some (.mmr x.guard pair (low2 x.d) u x.b vs) else none
  else some (.mm x.guard pair (low2 x.d) u la x.a x.b vs)

/-- MAJ 0x3B (R187, R266, R275). -/
def decodeMx (x : Fields) : Option Instr :=
  match x.f.val with
  | 0 => if x.d = 0 ∧ x.b = 0 then some (.latchA x.guard x.a) else none
  | 1 => if x.d = 0 ∧ x.b = 0 then some (.latchB x.guard x.a) else none
  | 2 => if x.d.val < 4 then some (.zld x.guard (low2 x.d) x.a x.b) else none
  | 3 => if x.d.val < 4 then some (.zst x.guard (low2 x.d) x.a x.b) else none
  | 4 => if x.d.val < 4 ∧ x.a = 0 ∧ x.b = 0 then some (.zclr x.guard (low2 x.d)) else none
  | _ => none

/-- MAJ 0x3C (R188, R281). -/
def decodeTask (x : Fields) : Option Instr :=
  let g := x.guard
  let k := x.f.val
  if k < 16 then some (.spawn g (flag (k / 8)) (flag (k / 4)) (flag (k / 2)) (flag k) x.d x.a x.b) else
  match k with
  | 16 => if x.b = 0 then some (.touch g x.d x.a) else none
  | 17 => if x.b = 0 then some (.touchQ g x.d x.a) else none
  | 18 => some (.resolve g x.d x.a x.b)
  | 19 => some (.poison g x.d x.a x.b)
  | 20 => if x.b = 0 then some (.fcan g x.d x.a) else none
  | 21 => if x.b = 0 ∧ x.d = 0 then some (.frel g x.a) else none
  | 22 => if x.b = 0 ∧ x.d.val < 8 then some (.ftest g (low3 x.d) x.a) else none
  | 23 => if x.b = 0 ∧ x.d = 0 then some (.fdec g x.a) else none
  | _ => none

/-- MAJ 0x3D (R188, R281). -/
def decodeMsg (x : Fields) : Option Instr :=
  let g := x.guard
  match x.f.val with
  | 0 => some (.glaunch g x.d x.a x.b)
  | 1 => if x.d = 0 ∧ x.a = 0 ∧ x.b = 0 then some (.yield g) else none
  | 2 => if x.d = 0 ∧ x.a = 0 ∧ x.b = 0 then some (.texit g) else none
  | 8 => some (.send g x.d x.a x.b)
  | 9 => if x.b = 0 then some (.sendc g x.d x.a) else none
  | 16 => if x.b = 0 then some (.eng g x.d x.a) else none
  | _ => none

/-- MAJ 0x3E (R188, R281). -/
def decodeRemote (x : Fields) : Option Instr :=
  let w := Width.ofCode (x.f.val % 4)
  match x.f.val / 4 with
  | 0 => if x.b = 0 then some (.rld x.guard w x.d x.a) else none
  | 1 => if x.b = 0 then some (.rldF x.guard w x.d x.a) else none
  | 2 => if x.d = 0 then some (.rst x.guard w x.a x.b) else none
  | _ => none

/-- MAJ 0x3F (R188, R213 to R216, R239). -/
def decodeSys (x : Fields) : Option Instr :=
  let g := x.guard
  let z := x.d = 0 ∧ x.a = 0 ∧ x.b = 0
  match x.f.val with
  | 0 => if x.d = 0 then some (.trap g x.b x.a) else none
  | 1 => if z then some (.ebreak g) else none
  | 2 => if z then some (.eret g) else none
  | 4 => some (.csrr g x.d x.b x.a)
  | 5 => some (.csrw g x.d x.b x.a)
  | 6 => if z then some (.sleep g) else none
  | 8 => if x.d.val < 16 ∧ x.b = 0 then some (.ctset g (low4 x.d) x.a) else none
  | 9 => if x.a.val < 16 ∧ x.b = 0 then some (.ctclr g x.d (low4 x.a)) else none
  | _ => none

/-- The opcode map by MAJ (R183 to R188), before the checks between fields. -/
def decodeMaj (x : Fields) : Option Instr :=
  match x.maj.val with
  | 0x00 => decodeAlu x
  | 0x01 => decodeCmp x
  | 0x02 => decodeExt x
  | 0x03 => some (.addi x.guard x.d x.a x.imm11)
  | 0x04 => some (.andi x.guard x.d x.a x.imm11)
  | 0x05 => some (.ori x.guard x.d x.a x.imm11)
  | 0x06 => some (.xori x.guard x.d x.a x.imm11)
  | 0x07 => decodeShift x .slli
  | 0x08 => decodeShift x .srli
  | 0x09 => decodeShift x .srai
  | 0x0A => some (.li x.guard x.d x.imm16)
  | 0x0B => some (.lsh x.guard x.d x.imm16)
  | 0x0C => decodeCmpiS x
  | 0x0D => decodeCmpiU x
  | 0x0E => decodeMove x
  | 0x10 => some (.br x.guard x.off21)
  | 0x11 => some (.call x.guard x.off21)
  | 0x12 => decodeJump x
  | 0x13 => if x.d = 0 ∧ x.f.val < 32 then some (.loop x.guard x.a (BitVec.ofNat 10 (x.f.val * 32 + x.b.val))) else none
  | 0x14 => some (.loopi x.guard x.imm11 (BitVec.ofNat 10 (x.d.val * 32 + x.a.val)))
  | 0x15 => decodePred x
  | 0x18 => decodeLd x
  | 0x19 => decodeSt x
  | 0x1A => decodeLdOrd x
  | 0x1B => decodeStRel x
  | 0x1C => decodeAtomic x .plain
  | 0x1D => decodeAtomic x .acq
  | 0x1E => decodeAtomic x .rel
  | 0x1F => decodeAtomic x .ar
  | 0x20 => decodeSync x
  | 0x21 => decodeRing x .rwait
  | 0x22 => decodeRing x .radv
  | 0x23 => decodeCache x
  | 0x24 => decodeVInt x
  | 0x25 => decodeVFloat x
  | 0x26 => decodeVFma x
  | 0x27 => decodeVCvt x
  | 0x28 => decodeVCmp x
  | 0x29 => decodeVMove x
  | 0x2A => decodeVRed x
  | 0x2B => some (.vld x.guard x.d x.a x.imm11)
  | 0x2C => some (.vst x.guard x.d x.a x.imm11)
  | 0x2D => decodeVRing x .vldr
  | 0x2E => decodeVRing x .vstr
  | 0x2F => decodeVMask x
  | 0x30 => decodeMm x
  | 0x31 => decodeMm x
  | 0x32 => decodeMm x
  | 0x33 => decodeMm x
  | 0x34 => decodeMm x
  | 0x35 => decodeMm x
  | 0x36 => decodeMm x
  | 0x37 => decodeMm x
  | 0x38 => decodeMm x
  | 0x39 => decodeMm x
  | 0x3A => decodeMm x
  | 0x3B => decodeMx x
  | 0x3C => decodeTask x
  | 0x3D => decodeMsg x
  | 0x3E => decodeRemote x
  | 0x3F => decodeSys x
  | _ => none

/-- A 32-bit word is an instruction when the map assigns it and its fields agree (R172). -/
def decode32 (w : Nat) : Option Instr :=
  (decodeMaj (Fields.unpack w)).bind fun i => if i.wf then some i else none

/-- The 16-bit forms by OP (R171): D is [9:5], W is [15:10]. -/
def decode16 (h : Nat) : Option Instr :=
  let d : Reg := Fin.ofNat 32 (h / 2 ^ 5)
  let w := h / 2 ^ 10 % 64
  let a : Reg := Fin.ofNat 32 w
  let imm := BitVec.ofNat 6 w
  match h / 2 % 16 with
  | 0x1 => if w < 32 then some (.cMov d a) else none
  | 0x2 => if w < 32 then some (.cAdd d a) else none
  | 0x3 => if w < 32 then some (.cSub d a) else none
  | 0x4 => if w < 32 then some (.cAnd d a) else none
  | 0x5 => if w < 32 then some (.cOr d a) else none
  | 0x6 => if w < 32 then some (.cXor d a) else none
  | 0x7 => some (.cAddi d imm)
  | 0x8 => some (.cLi d imm)
  | 0x9 => some (.cSlli d imm)
  | 0xA => some (.cSrli d imm)
  | 0xB => if w < 32 then some (.cLd d a) else none
  | 0xC => if w < 32 then some (.cSt d a) else none
  | 0xD => some (.cBr (BitVec.ofNat 11 (h / 2 ^ 5)))
  | 0xE => if h / 2 ^ 5 % 2048 = 0 then some .cRet else none
  | 0xF => if w < 32 then some (.cTouch d a) else none
  | _ => none

/-- Why some bytes are no instruction. -/
inductive DecodeError where
  /-- Fewer bytes than the instruction has. -/
  | truncated
  /-- The word, of 2 or 4 bytes, is not an instruction (R172, R387). -/
  | notAnInstruction (len word : Nat)
  deriving DecidableEq, Repr

/-- Little-endian value of a byte list (R6). -/
def leNat : List Byte → Nat
  | [] => 0
  | b :: bs => b.toNat + 256 * leNat bs

/-- The first `n` bytes, little-endian, of a number (R6). -/
def leBytes : Nat → Nat → List Byte
  | 0, _ => []
  | n + 1, v => BitVec.ofNat 8 v :: leBytes n (v / 256)

/-- Decode the instruction that begins a byte string: a halfword whose bit 0 is 0 is a whole instruction, otherwise the
next halfword holds bits [31:16] (R168). The second component is the length in bytes. -/
def decode (bs : List Byte) : Except DecodeError (Instr × Nat) :=
  match bs with
  | b0 :: b1 :: rest =>
    let h := leNat [b0, b1]
    if h % 2 = 0 then
      match decode16 h with
      | some i => .ok (i, 2)
      | none => .error (.notAnInstruction 2 h)
    else
      match rest with
      | b2 :: b3 :: _ =>
        let w := leNat [b0, b1, b2, b3]
        match decode32 w with
        | some i => .ok (i, 4)
        | none => .error (.notAnInstruction 4 w)
      | _ => .error .truncated
  | _ => .error .truncated

/-- The instruction the decoder reads from a word of `nbits` bits, laid out in memory little-endian, followed by zero
bytes up to the longest instruction. -/
def decodeTableWord (nbits w : Nat) : Option Instr :=
  match decode (leBytes (Nat.max 4 (nbits / 8)) (w % 2 ^ nbits)) with
  | .ok (i, _) => some i
  | .error _ => none

/-! ## The encoder -/

/-- A flag as the number 0 or 1. -/
def bit (b : Bool) : Nat := if b then 1 else 0

/-- Width codes of R185. -/
def Width.code : Width → Nat
  | .b => 0
  | .h => 1
  | .w => 2
  | .d => 3

/-- Scope codes of R185. -/
def Scope.code : Scope → Nat
  | .t => 0
  | .c => 1
  | .k => 2
  | .d => 3
  | .p => 4
  | .s => 5

/-- Scope codes of the atomics (R185). -/
def AScope.code : AScope → Nat
  | .k => 0
  | .d => 1
  | .p => 2
  | .s => 3

/-- Ordering codes of the atomics (R185). -/
def AOrd.code : AOrd → Nat
  | .plain => 0
  | .acq => 1
  | .rel => 2
  | .ar => 3

/-- Condition codes of MAJ 0x01 (R183). -/
def Cc.code : Cc → Nat
  | .eq => 0
  | .ne => 1
  | .lt => 2
  | .ge => 3
  | .ltu => 4
  | .geu => 5

/-- Condition codes of MAJ 0x0C (R183). -/
def CcS.code : CcS → Nat
  | .eq => 0
  | .ne => 1
  | .lt => 2
  | .ge => 3

/-- Condition codes of MAJ 0x0D (R183). -/
def CcU.code : CcU → Nat
  | .ltu => 0
  | .geu => 1

/-- Integer type codes of R186. -/
def IType.code : IType → Nat
  | .i8 => 0
  | .i16 => 1
  | .i32 => 2
  | .i64 => 3

/-- Floating format codes of R186. -/
def FType.code : FType → Nat
  | .f64 => 0
  | .f32 => 1
  | .f16 => 2
  | .bf16 => 3

/-- Lane type codes of MAJ 0x28 (R186). -/
def LType.code : LType → Nat
  | .i8 => 0
  | .i16 => 1
  | .i32 => 2
  | .i64 => 3
  | .f64 => 4
  | .f32 => 5
  | .f16 => 6
  | .bf16 => 7

/-- Condition codes of MAJ 0x28 (R186). -/
def VCc.code : VCc → Nat
  | .eq => 0
  | .ne => 1
  | .lt => 2
  | .le => 3
  | .ltu => 4
  | .leu => 5

/-- Ring side codes of R232. -/
def RSide.code : RSide → Nat
  | .filled => 0
  | .free => 1

/-- A field split from numbers, each taken modulo its field's size. -/
def Fields.of (g : Guard) (maj f b a d : Nat) : Fields :=
  ⟨Fin.ofNat 64 f, Fin.ofNat 32 b, Fin.ofNat 32 a, Fin.ofNat 32 d, Fin.ofNat 2 (bit g.neg), g.p, Fin.ofNat 64 maj⟩

/-- The I and S forms: an 11-bit immediate in F and B (R169). -/
def Fields.ofImm (g : Guard) (maj imm a d : Nat) : Fields := .of g maj (imm / 32) imm a d

/-- The fields of a 32-bit instruction, none for a 16-bit form and for an operation of the machine. -/
def Instr.fields : Instr → Option Fields
  | .add g d a b => some (.of g 0x00 0 b.val a.val d.val)
  | .sub g d a b => some (.of g 0x00 1 b.val a.val d.val)
  | .and g d a b => some (.of g 0x00 2 b.val a.val d.val)
  | .or g d a b => some (.of g 0x00 3 b.val a.val d.val)
  | .xor g d a b => some (.of g 0x00 4 b.val a.val d.val)
  | .andn g d a b => some (.of g 0x00 5 b.val a.val d.val)
  | .sll g d a b => some (.of g 0x00 6 b.val a.val d.val)
  | .srl g d a b => some (.of g 0x00 7 b.val a.val d.val)
  | .sra g d a b => some (.of g 0x00 8 b.val a.val d.val)
  | .rol g d a b => some (.of g 0x00 9 b.val a.val d.val)
  | .min g d a b => some (.of g 0x00 10 b.val a.val d.val)
  | .max g d a b => some (.of g 0x00 11 b.val a.val d.val)
  | .minu g d a b => some (.of g 0x00 12 b.val a.val d.val)
  | .maxu g d a b => some (.of g 0x00 13 b.val a.val d.val)
  | .mul g d a b => some (.of g 0x00 14 b.val a.val d.val)
  | .mulh g d a b => some (.of g 0x00 15 b.val a.val d.val)
  | .mulhu g d a b => some (.of g 0x00 16 b.val a.val d.val)
  | .div g d a b => some (.of g 0x00 17 b.val a.val d.val)
  | .divu g d a b => some (.of g 0x00 18 b.val a.val d.val)
  | .rem g d a b => some (.of g 0x00 19 b.val a.val d.val)
  | .remu g d a b => some (.of g 0x00 20 b.val a.val d.val)
  | .clz g d a => some (.of g 0x00 21 0 a.val d.val)
  | .ctz g d a => some (.of g 0x00 22 0 a.val d.val)
  | .popc g d a => some (.of g 0x00 23 0 a.val d.val)
  | .adx g sh d a b => some (.of g 0x00 (24 + sh.val) b.val a.val d.val)
  | .cmp g cc pd a b => some (.of g 0x01 cc.code b.val a.val pd.val)
  | .cmpiSigned g cc pd a imm => some (.ofImm g 0x0C imm.toNat a.val (cc.code * 8 + pd.val))
  | .cmpiUnsigned g cc pd a imm => some (.ofImm g 0x0D imm.toNat a.val (cc.code * 8 + pd.val))
  | .madd g e d a b => some (.of g 0x02 (0 * 8 + e.val) b.val a.val d.val)
  | .msub g e d a b => some (.of g 0x02 (1 * 8 + e.val) b.val a.val d.val)
  | .bfx g e d a b => some (.of g 0x02 (2 * 8 + e.val) b.val a.val d.val)
  | .bfi g e d a b => some (.of g 0x02 (3 * 8 + e.val) b.val a.val d.val)
  | .addi g d a imm => some (.ofImm g 0x03 imm.toNat a.val d.val)
  | .andi g d a imm => some (.ofImm g 0x04 imm.toNat a.val d.val)
  | .ori g d a imm => some (.ofImm g 0x05 imm.toNat a.val d.val)
  | .xori g d a imm => some (.ofImm g 0x06 imm.toNat a.val d.val)
  | .slli g d a sh => some (.ofImm g 0x07 sh.toNat a.val d.val)
  | .srli g d a sh => some (.ofImm g 0x08 sh.toNat a.val d.val)
  | .srai g d a sh => some (.ofImm g 0x09 sh.toNat a.val d.val)
  | .li g d imm => some (.ofImm g 0x0A (imm.toNat / 32) imm.toNat d.val)
  | .lsh g d imm => some (.ofImm g 0x0B (imm.toNat / 32) imm.toNat d.val)
  | .move g ed a => some (.of g 0x0E 0 0 a.val ed.val)
  | .movx g d ea => some (.of g 0x0E 1 0 ea.val d.val)
  | .sel g p d a b => some (.of g 0x0E (8 + p.val) b.val a.val d.val)
  | .br g off => some (.of g 0x10 (off.toNat / 2 ^ 15) (off.toNat / 2 ^ 10) (off.toNat / 2 ^ 5) off.toNat)
  | .call g off => some (.of g 0x11 (off.toNat / 2 ^ 15) (off.toNat / 2 ^ 10) (off.toNat / 2 ^ 5) off.toNat)
  | .jr g a => some (.of g 0x12 0 0 a.val 0)
  | .callr g a => some (.of g 0x12 1 0 a.val 0)
  | .ret g => some (.of g 0x12 2 0 0 0)
  | .loop g a len => some (.ofImm g 0x13 len.toNat a.val 0)
  | .loopi g count len => some (.ofImm g 0x14 count.toNat len.toNat (len.toNat / 32))
  | .pand g pd pa pb => some (.of g 0x15 0 pb.val pa.val pd.val)
  | .por g pd pa pb => some (.of g 0x15 1 pb.val pa.val pd.val)
  | .pxor g pd pa pb => some (.of g 0x15 2 pb.val pa.val pd.val)
  | .pandn g pd pa pb => some (.of g 0x15 3 pb.val pa.val pd.val)
  | .porn g pd pa pb => some (.of g 0x15 4 pb.val pa.val pd.val)
  | .pget g d => some (.of g 0x15 5 0 0 d.val)
  | .pset g a => some (.of g 0x15 6 0 a.val 0)
  | .ld g w z d a disp => some (.ofImm g 0x18 (w.code * 512 + bit z * 256 + disp.toNat) a.val d.val)
  | .ldAcq g sc w z d a disp =>
    some (.ofImm g 0x1A (w.code * 512 + bit z * 256 + sc.code * 32 + disp.toNat) a.val d.val)
  | .ldCon g w z d a disp => some (.ofImm g 0x1A (w.code * 512 + bit z * 256 + 6 * 32 + disp.toNat) a.val d.val)
  | .st g w home src a disp => some (.ofImm g 0x19 (w.code * 512 + bit home * 256 + disp.toNat) a.val src.val)
  | .stRel g sc w home src a disp =>
    some (.ofImm g 0x1B (w.code * 512 + bit home * 256 + sc.code * 32 + disp.toNat) a.val src.val)
  | .aadd g o sc home d a b =>
    some (.of g (0x1C + o.code) (0 * 8 + bit home * 4 + sc.code) b.val a.val d.val)
  | .amin g o sc home d a b =>
    some (.of g (0x1C + o.code) (1 * 8 + bit home * 4 + sc.code) b.val a.val d.val)
  | .amax g o sc home d a b =>
    some (.of g (0x1C + o.code) (2 * 8 + bit home * 4 + sc.code) b.val a.val d.val)
  | .aand g o sc home d a b =>
    some (.of g (0x1C + o.code) (3 * 8 + bit home * 4 + sc.code) b.val a.val d.val)
  | .aor g o sc home d a b =>
    some (.of g (0x1C + o.code) (4 * 8 + bit home * 4 + sc.code) b.val a.val d.val)
  | .axor g o sc home d a b =>
    some (.of g (0x1C + o.code) (5 * 8 + bit home * 4 + sc.code) b.val a.val d.val)
  | .aswap g o sc home d a b =>
    some (.of g (0x1C + o.code) (6 * 8 + bit home * 4 + sc.code) b.val a.val d.val)
  | .acas g o sc home d a b =>
    some (.of g (0x1C + o.code) (7 * 8 + bit home * 4 + sc.code) b.val a.val d.val)
  | .acasq g o sc d a b => some (.of g 0x20 (32 + o.code * 4 + sc.code) b.val a.val d.val)
  | .fence g sc => some (.of g 0x20 sc.code 0 0 0)
  | .sealR g a => some (.of g 0x20 8 0 a.val 0)
  | .unsealR g a => some (.of g 0x20 9 0 a.val 0)
  | .waitv g a b => some (.of g 0x20 12 b.val a.val 0)
  | .semp g k a => some (.of g 0x20 (16 + k.val) 0 a.val 0)
  | .semv g k a => some (.of g 0x20 (20 + k.val) 0 a.val 0)
  | .barw g ch d a b => some (.of g 0x20 (24 + ch.val) b.val a.val d.val)
  | .rwait g side h n => some (.ofImm g 0x21 n.toNat 0 (side.code * 16 + h.val))
  | .radv g side h n => some (.ofImm g 0x22 n.toNat 0 (side.code * 16 + h.val))
  | .cwb g a => some (.of g 0x23 0 0 a.val 0)
  | .cinv g a => some (.of g 0x23 1 0 a.val 0)
  | .iinv g a => some (.of g 0x23 2 0 a.val 0)
  | .ifb g => some (.of g 0x23 3 0 0 0)
  | .ldr g d h b => some (.of g 0x23 8 b.val h.val d.val)
  | .str g src h b => some (.of g 0x23 9 b.val h.val src.val)
  | .ctset g n a => some (.of g 0x3F 8 0 a.val n.val)
  | .ctclr g d n => some (.of g 0x3F 9 0 n.val d.val)
  | .vadd g t d a b => some (.of g 0x24 (0 * 4 + t.code) b.val a.val d.val)
  | .vsub g t d a b => some (.of g 0x24 (1 * 4 + t.code) b.val a.val d.val)
  | .vmul g t d a b => some (.of g 0x24 (2 * 4 + t.code) b.val a.val d.val)
  | .vmin g t d a b => some (.of g 0x24 (3 * 4 + t.code) b.val a.val d.val)
  | .vmax g t d a b => some (.of g 0x24 (4 * 4 + t.code) b.val a.val d.val)
  | .vminu g t d a b => some (.of g 0x24 (5 * 4 + t.code) b.val a.val d.val)
  | .vmaxu g t d a b => some (.of g 0x24 (6 * 4 + t.code) b.val a.val d.val)
  | .vand g t d a b => some (.of g 0x24 (7 * 4 + t.code) b.val a.val d.val)
  | .vor g t d a b => some (.of g 0x24 (8 * 4 + t.code) b.val a.val d.val)
  | .vxor g t d a b => some (.of g 0x24 (9 * 4 + t.code) b.val a.val d.val)
  | .vsll g t d a b => some (.of g 0x24 (10 * 4 + t.code) b.val a.val d.val)
  | .vsrl g t d a b => some (.of g 0x24 (11 * 4 + t.code) b.val a.val d.val)
  | .vsra g t d a b => some (.of g 0x24 (12 * 4 + t.code) b.val a.val d.val)
  | .vadds g t d a b => some (.of g 0x24 (13 * 4 + t.code) b.val a.val d.val)
  | .vsubs g t d a b => some (.of g 0x24 (14 * 4 + t.code) b.val a.val d.val)
  | .vfadd g t d a b => some (.of g 0x25 (0 * 4 + t.code) b.val a.val d.val)
  | .vfsub g t d a b => some (.of g 0x25 (1 * 4 + t.code) b.val a.val d.val)
  | .vfmul g t d a b => some (.of g 0x25 (2 * 4 + t.code) b.val a.val d.val)
  | .vfdiv g t d a b => some (.of g 0x25 (3 * 4 + t.code) b.val a.val d.val)
  | .vfmin g t d a b => some (.of g 0x25 (4 * 4 + t.code) b.val a.val d.val)
  | .vfmax g t d a b => some (.of g 0x25 (5 * 4 + t.code) b.val a.val d.val)
  | .vfsqrt g t d a => some (.of g 0x25 (6 * 4 + t.code) 0 a.val d.val)
  | .vfabs g t d a => some (.of g 0x25 (7 * 4 + t.code) 0 a.val d.val)
  | .vfneg g t d a => some (.of g 0x25 (8 * 4 + t.code) 0 a.val d.val)
  | .vfma g t d a b => some (.of g 0x26 (0 * 4 + t.code) b.val a.val d.val)
  | .vfms g t d a b => some (.of g 0x26 (1 * 4 + t.code) b.val a.val d.val)
  | .vfnma g t d a b => some (.of g 0x26 (2 * 4 + t.code) b.val a.val d.val)
  | .vfnms g t d a b => some (.of g 0x26 (3 * 4 + t.code) b.val a.val d.val)
  | .vcvt g sr src dst d a => some (.of g 0x27 (bit sr * 32 + src.val) dst.val a.val d.val)
  | .vcmp g cc t all pd a b => some (.of g 0x28 (cc.code * 8 + t.code) b.val a.val (bit all * 8 + pd.val))
  | .vperm g d a b => some (.of g 0x29 0 b.val a.val d.val)
  | .vbcast g t d a => some (.of g 0x29 (4 + t.code) 0 a.val d.val)
  | .vext g t d a b => some (.of g 0x29 (8 + t.code) b.val a.val d.val)
  | .vins g t d a b => some (.of g 0x29 (12 + t.code) b.val a.val d.val)
  | .vredSum g t d a => some (.of g 0x2A t.code 0 a.val d.val)
  | .vredMin g t d a => some (.of g 0x2A (8 + t.code) 0 a.val d.val)
  | .vredMax g t d a => some (.of g 0x2A (16 + t.code) 0 a.val d.val)
  | .vld g d a disp => some (.ofImm g 0x2B disp.toNat a.val d.val)
  | .vst g src a disp => some (.ofImm g 0x2C disp.toNat a.val src.val)
  | .vldr g d h side slot off =>
    some (.ofImm g 0x2D (slot.toNat * 64 + off.toNat) (side.code * 16 + h.val) d.val)
  | .vstr g src h side slot off =>
    some (.ofImm g 0x2E (slot.toNat * 64 + off.toNat) (side.code * 16 + h.val) src.val)
  | .vmsum g d a b => some (.of g 0x2F 0 b.val a.val d.val)
  | .vrscl g d a b => some (.of g 0x2F 1 b.val a.val d.val)
  | .mm g pair z u la a b vs =>
    some (.of g (0x30 + pair.val / 2) (vs.val * 2 + pair.val % 2) b.val a.val (bit la * 8 + bit u * 4 + z.val))
  | .mmr g pair z u b vs =>
    some (.of g (0x30 + pair.val / 2) (vs.val * 2 + pair.val % 2) b.val 0 (24 + bit u * 4 + z.val))
  | .latchA g a => some (.of g 0x3B 0 0 a.val 0)
  | .latchB g a => some (.of g 0x3B 1 0 a.val 0)
  | .zld g z a fmt => some (.of g 0x3B 2 fmt.val a.val z.val)
  | .zst g z a fmt => some (.of g 0x3B 3 fmt.val a.val z.val)
  | .zclr g z => some (.of g 0x3B 4 0 0 z.val)
  | .spawn g inl restart linked single d a b =>
    some (.of g 0x3C (bit inl * 8 + bit restart * 4 + bit linked * 2 + bit single) b.val a.val d.val)
  | .touch g d a => some (.of g 0x3C 16 0 a.val d.val)
  | .touchQ g d a => some (.of g 0x3C 17 0 a.val d.val)
  | .resolve g d a b => some (.of g 0x3C 18 b.val a.val d.val)
  | .poison g d a b => some (.of g 0x3C 19 b.val a.val d.val)
  | .fcan g d a => some (.of g 0x3C 20 0 a.val d.val)
  | .frel g a => some (.of g 0x3C 21 0 a.val 0)
  | .ftest g pd a => some (.of g 0x3C 22 0 a.val pd.val)
  | .fdec g a => some (.of g 0x3C 23 0 a.val 0)
  | .glaunch g d a b => some (.of g 0x3D 0 b.val a.val d.val)
  | .yield g => some (.of g 0x3D 1 0 0 0)
  | .texit g => some (.of g 0x3D 2 0 0 0)
  | .send g d a b => some (.of g 0x3D 8 b.val a.val d.val)
  | .sendc g d a => some (.of g 0x3D 9 0 a.val d.val)
  | .eng g d a => some (.of g 0x3D 16 0 a.val d.val)
  | .rld g w d a => some (.of g 0x3E w.code 0 a.val d.val)
  | .rldF g w d a => some (.of g 0x3E (4 + w.code) 0 a.val d.val)
  | .rst g w a b => some (.of g 0x3E (8 + w.code) b.val a.val 0)
  | .trap g hi lo => some (.of g 0x3F 0 hi.val lo.val 0)
  | .ebreak g => some (.of g 0x3F 1 0 0 0)
  | .eret g => some (.of g 0x3F 2 0 0 0)
  | .csrr g d hi lo => some (.of g 0x3F 4 hi.val lo.val d.val)
  | .csrw g src hi lo => some (.of g 0x3F 5 hi.val lo.val src.val)
  | .sleep g => some (.of g 0x3F 6 0 0 0)
  | _ => none

/-- The halfword of a 16-bit form (R171), none for every other constructor. -/
def Instr.half : Instr → Option Nat
  | .cMov d a => some (a.val * 2 ^ 10 + d.val * 2 ^ 5 + 0x1 * 2)
  | .cAdd d a => some (a.val * 2 ^ 10 + d.val * 2 ^ 5 + 0x2 * 2)
  | .cSub d a => some (a.val * 2 ^ 10 + d.val * 2 ^ 5 + 0x3 * 2)
  | .cAnd d a => some (a.val * 2 ^ 10 + d.val * 2 ^ 5 + 0x4 * 2)
  | .cOr d a => some (a.val * 2 ^ 10 + d.val * 2 ^ 5 + 0x5 * 2)
  | .cXor d a => some (a.val * 2 ^ 10 + d.val * 2 ^ 5 + 0x6 * 2)
  | .cAddi d imm => some (imm.toNat * 2 ^ 10 + d.val * 2 ^ 5 + 0x7 * 2)
  | .cLi d imm => some (imm.toNat * 2 ^ 10 + d.val * 2 ^ 5 + 0x8 * 2)
  | .cSlli d sh => some (sh.toNat * 2 ^ 10 + d.val * 2 ^ 5 + 0x9 * 2)
  | .cSrli d sh => some (sh.toNat * 2 ^ 10 + d.val * 2 ^ 5 + 0xA * 2)
  | .cLd d a => some (a.val * 2 ^ 10 + d.val * 2 ^ 5 + 0xB * 2)
  | .cSt src a => some (a.val * 2 ^ 10 + src.val * 2 ^ 5 + 0xC * 2)
  | .cBr off => some (off.toNat * 2 ^ 5 + 0xD * 2)
  | .cRet => some (0xE * 2)
  | .cTouch d a => some (a.val * 2 ^ 10 + d.val * 2 ^ 5 + 0xF * 2)
  | _ => none

/-- The bytes of an instruction, little-endian by halfwords (R168); the empty list for an operation of the machine,
which has no encoding. -/
def encode (i : Instr) : List Byte :=
  match i.fields with
  | some x => leBytes 4 x.pack
  | none =>
    match i.half with
    | some h => leBytes 2 h
    | none => []

/-- The instruction word zero-extended, as INFO of R388 reports it. -/
def Instr.word (i : Instr) : Nat := leNat (encode i)

/-- The length of an instruction in bytes (R168, R171). -/
def Instr.len (i : Instr) : Nat := if i.half.isSome then 2 else 4

/-- The guard of an instruction; 16-bit forms have none (R170, R171). -/
def Instr.guard (i : Instr) : Guard :=
  match i.fields with
  | some x => x.guard
  | none => .always

end Sys2Proof
end

