-- ==== Sys2Proof/Config.lean ====
section
/-!
DEFINITION. What the spec leaves to an implementation or names without defining: uninterpreted functions that no
proof can see into (log entries 10 and 11).
-/

namespace Sys2Proof.Config

/-- A value the spec leaves open; the argument is the counter State.free (log entry 10: DESIGN CHOICE, safe). -/
opaque freeWord : Nat → Word

/-- AES-256-GCM sealing: key, nonce, associated data and plaintext give ciphertext with its tag behind it (spec/15 R331,
spec/16 R359; the primitive is named and not defined, log entry 11: DESIGN CHOICE, safe). -/
opaque gcmSeal : List Byte → List Byte → List Byte → List Byte → List Byte

/-- The inverse of `gcmSeal`, none where the tag does not match (log entry 11: DESIGN CHOICE, safe). -/
opaque gcmOpen : List Byte → List Byte → List Byte → List Byte → Option (List Byte)

/-- The nonce of a flit, from its FCLASS and SEQ (spec/15 R331 names none, log entry 33: DESIGN CHOICE, safe). -/
opaque flitNonce : Nat → Nat → List Byte

/-- The number by which packets name a collective group, from the nodes of its members in rank order (spec/15 R330 gives the
group half of ARG no layout, log entry 101: DESIGN CHOICE, safe). -/
opaque groupId : List Nat → Nat

/-- The boot ROM, which measurement 1 covers (spec/15 R345, log entry 11: DESIGN CHOICE, safe). -/
opaque bootRom : List Byte

/-- The hash of DEST [31:15] and ROUTE that chooses a packet's port (spec/15 R332: not architectural, log entry 27: DESIGN
CHOICE, unsafe). -/
opaque portHash : Nat → Nat → Nat

/-- SHA-512 of a byte string, 64 bytes (spec/15 R345, log entry 11: DESIGN CHOICE, safe). -/
opaque sha512 : List Byte → List Byte

/-- Whether Ramzu's image carries a valid signature (spec/15 R347, log entry 11: DESIGN CHOICE, safe). -/
opaque signatureValid : List Byte → Bool

/-- HKDF-SHA-512 to 32 bytes from salt, key material and info (spec/16 R359, log entry 11: DESIGN CHOICE, safe). -/
opaque hkdf : List Byte → List Byte → List Byte → List Byte

/-- The Ed25519 signature of a byte string by the identity key of a node (spec/15 R345, spec/16 R360, log entry 11: DESIGN
CHOICE, safe). -/
opaque sign : Nat → List Byte → List Byte

/-- Whether a signature over a byte string verifies against a certificate chain that ends at a Deroavo root (spec/16 R362,
log entry 11: DESIGN CHOICE, safe). -/
opaque verify : List Byte → List Byte → List Byte → Bool

/-- The signed answer to an SPDM request (spec/15 R345, log entry 11: DESIGN CHOICE, safe). -/
opaque spdmSign : List Byte → List Byte

end Sys2Proof.Config
end

