-- ==== Sys2Proof/Machine/State.lean ====
section
/-!
DEFINITION. The state of one Z6 package, as plain data: memory, threads, cores, clusters, partitions, the master
distributor, engines, ports and Ramzu, each as INVENTORY.md lists it under State, with the rule that names it.
-/

namespace Sys2Proof.Machine

/-- Why the model stops with a fault. No step of this machine does: what the spec calls an error is a trap, a status or
a counter, all of them next states. -/
inductive Fault where
  /-- Raised by nobody; it keeps the type inhabited. Safe. -/
  | none
  deriving DecidableEq, Repr

/-- Why the model refuses an instruction. -/
inductive Refusal where
  /-- Raised by Machine/Dispatch.lean for an instruction without a meaning yet. Safe. -/
  | notModelled (mnemonic : String)
  deriving DecidableEq, Repr

/-- Sparse data by number; a missing key reads as the default its user states. -/
abbrev Map (α : Type) := List (Nat × α)

/-- The entry of a key. -/
def Map.find {α : Type} (m : Map α) (k : Nat) : Option α :=
  match m with
  | [] => .none
  | (j, v) :: rest => if j = k then some v else Map.find rest k

/-- The map without a key. -/
def Map.erase {α : Type} (m : Map α) (k : Nat) : Map α := m.filter fun e => e.1 != k

/-- The map with a key set. -/
def Map.put {α : Type} (m : Map α) (k : Nat) (v : α) : Map α := (k, v) :: Map.erase m k

/-- Memory of every place in one space of place addresses (Machine/Ops.lean lays it out): a list of cells, addresses
strictly rising, no cell equal to zero, which is what an unlisted address reads as (log entry 1: DESIGN CHOICE, unsafe). -/
abbrev Memory := List Host.Cell

/-- The canonical form of memory: addresses strictly rise and no listed byte is zero. -/
def Memory.wf : Memory → Bool
  | [] => true
  | [c] => c.2 != 0
  | c :: d :: rest => c.2 != 0 && decide (c.1 < d.1) && Memory.wf (d :: rest)

/-- Kinds of thread (02 R32), with the codes of R179. -/
inductive TKind where
  | task | gang | handler | supervisor
  deriving DecidableEq, Repr

/-- Trap causes (17 R364). -/
inductive Cause where
  | illegal | resource | priv | align | prot | page | stage2 | sealwr | atomattr | rstack | loopnest | futbad
  | futpoison | futexhaust | futcancel | contour | acklost | remote | mxowner | ringbad | queue | mcheck | brk
  | syscall | preempt
  deriving DecidableEq, Repr

/-- The fields of an entry header that a thread is held to (02 R34). `kind` is HDR0.KIND. -/
structure Header where
  kind : Nat
  prio : Nat
  xcount : Nat
  vcount : Nat
  rings : BitVec 16
  barriers : BitVec 4
  tpc : Nat
  torus : Bool
  tsframe : Nat
  clsscr : Nat
  gthreads : Nat
  deriving DecidableEq, Repr

/-- The declaration of a thread that no header binds (S level, 07 R173). -/
def Header.all : Header := ⟨0, 0, 32, 32, 0xFFFF, 0, 0, false, 0, 0, 0⟩

/-- The region rights of 04 R92 that an access was checked against, kept with it. -/
structure Rights where
  rd : Bool
  w : Bool
  x : Bool
  sealOk : Bool
  atom : Bool
  homerun : Bool
  deriving DecidableEq, Repr

/-- One PLB entry (04 R93): a region descriptor tagged with its domain, and SEALED. -/
structure PlbEntry where
  part : Nat
  dom : Nat
  base : Nat
  log2 : Nat
  rights : Rights
  isSealed : Bool
  deriving DecidableEq, Repr

/-- Where a bound value goes. -/
inductive Dst where
  /-- Nowhere: a plain store. -/
  | none
  /-- An x register: width in bytes, sign extension, and the TAINT it receives. -/
  | x (d : Reg) (bytes : Nat) (signed : Bool) (taint : Bool)
  /-- The pair of ACASQ (09 R227). -/
  | pair (d : Reg) (taint : Bool)
  /-- Sixteen or thirty-two bytes of a v register, from a byte offset. -/
  | v (d : Reg) (off : Nat)
  /-- A granule of an operand latch (11 R267): B when true. -/
  | latch (b : Bool) (off : Nat)
  /-- A granule captured for the matrix unit's A operand (11 R270, R271) or for a ZLD (R276). -/
  | unit (off : Nat)
  /-- The future of an asynchronous remote load (12 R302). -/
  | future (f : Word)
  deriving DecidableEq, Repr

/-- What an issued access does at its place. -/
inductive AccOp where
  | load
  | store
  /-- An 8-byte atomic of 09 R226, by its operation number 0 to 7 with operand and comparand. -/
  | atomic (op : Nat) (operand cmp : Word)
  /-- The 128-bit compare and swap of 09 R227. -/
  | casq (new cmp : BitVec 128)
  deriving DecidableEq, Repr

/-- The place of an access (05 R118). -/
inductive Place where
  /-- A cacheable line of translated memory. -/
  | line
  /-- An ATOM page (04 R112). -/
  | atom
  /-- A single place, by its place address. -/
  | single (pa : Nat)
  /-- Another node (04 R89). -/
  | remote
  deriving DecidableEq, Repr

/-- How far an access has come (05 R119 to R122, 17 R366). -/
inductive AccState where
  | issued
  /-- Performed at the home, its acknowledgement outstanding, with the old bytes. -/
  | performed (old : List Byte)
  deriving DecidableEq, Repr

/-- One issued access that is not complete: an element of SQ, or an unbound load (05 R119, R120). -/
structure Access where
  id : Nat
  op : AccOp
  va : Nat
  /-- The address the instruction formed, which a refusal reports (04 R89). -/
  info : Nat
  size : Nat
  place : Place
  data : List Byte
  home : Bool
  ord : AOrd
  scope : Scope
  l1ok : Bool
  consume : Bool
  isSealed : Bool
  dst : Dst
  /-- The x and v registers whose content the access still needs as its data (20 R426). -/
  srcX : List Nat
  srcV : List Nat
  /-- Whether e0 is among its operands (20 R426). -/
  srcE : Bool
  /-- The access descriptor of 20 R423 with WHERE, LEVEL and REASON zero. -/
  desc : Nat
  fpc : Nat
  dom : Nat
  /-- The ATOM right of the region the access was checked against. -/
  atom : Bool
  /-- Whether its data came poisoned: a LATCH carries poison on to the latch (21 R441). -/
  bad : Bool
  state : AccState
  /-- Whether it was in flight to a home when its memory group was contained, so that no acknowledgement of it arrives (20 R437,
  R438; 21 R450). -/
  lost : Bool
  deriving DecidableEq, Repr

/-- A deferred cause that waits for its delivery (17 R366): the refused access with the cause's words. -/
structure Deferred where
  cause : Cause
  info : Word
  info2 : Word
  access : Access
  deriving DecidableEq, Repr

/-- One frame of a trap handler: what TSTAT and TFRAME hold for it (17 R376) and the domain entry recorded (R374). -/
structure TFrame where
  addr : Word
  cause : Cause
  kind : TKind
  ppriv : Bool
  xcount : Nat
  vcount : Nat
  dom : Nat
  hdr : Header
  spanOff : Nat
  spanLen : Nat
  ownOff : Nat
  ownLen : Nat
  /-- Deferred causes that the trap left undelivered: the next follows the ERET (17 R367). -/
  pending : List Deferred
  deriving DecidableEq, Repr

/-- A trap that a thread has found and that waits for its earlier accesses (17 R369). -/
structure TrapReq where
  cause : Cause
  info : Word
  info2 : Word
  fpc : Nat
  resume : Nat
  deferred : Bool
  async : Bool
  /-- The image resumes after the trapping instruction, its loop state stepped (18 R392). -/
  completed : Bool
  /-- Lines of the trap frame that have been stored, once its entry has begun (17 R369). -/
  stored : Option Nat
  deriving DecidableEq, Repr

/-- States of a future entry (02 R43). FREE entries are absent. -/
inductive FState where
  | pending | resolved | poisoned | cancelled
  deriving DecidableEq, Repr

/-- What a thread waits for (02 R32, R33; 03 R80). PC stays at the waiting instruction; when the wait has its answer, the
instruction runs again and completes with it. -/
inductive Wait where
  | none
  /-- A recorded waiter of a future (12 R289). -/
  | touch (f : Word)
  /-- The answer to a request sent under a tag to another node (12 R302, R303). -/
  | reply (tag : Nat)
  /-- The answer of an RLD or RST at its home in the package (12 R302, R303). -/
  | home
  /-- The ring unit: cluster, ring, side, count (09 R233). -/
  | ring (cl n : Nat) (side : RSide) (count : Nat)
  /-- A watched line, by the place of its first byte (09 R230). -/
  | watch (pa : Nat)
  /-- A semaphore, with the amount (09 R231). -/
  | sem (k : Nat) (amount : Word)
  /-- A barrier channel: its key, the arrival's mask, step and time-out, whether the root has taken the arrival, the cycle
  of arrival, whether a withdrawal is on its way, and the destination register with its TAINT (09 R236). -/
  | barrier (ch mask step tmo : Nat) (arrived : Bool) (since : Nat) (withdraw : Bool) (d : Reg) (taint : Bool)
  /-- A barrier phase that has released: the cycle in which the thread completes, and its destination (09 R236). -/
  | released (cycle : Nat) (d : Reg) (taint : Bool)
  /-- SLEEP, with the core cycle it began (08 R215). -/
  | sleep (since : Nat)
  /-- An allocation stall: the instruction runs again when room appears (12 R286, 19 R400). -/
  | alloc
  /-- A future has been allocated, and its instruction waits for room in the injection queue (12 R300, R305). -/
  | room (f : Word)
  /-- A YIELD that waits for park room (19 R402). -/
  | yielded
  /-- A wait that has ended without a value. -/
  | woken
  /-- The terminal state of a touched future (12 R289). -/
  | answer (st : FState) (value : Word) (status : BitVec 16)
  /-- The handle of a touch was consumed before it (12 R290). -/
  | stale
  /-- The value of a remote load, low and high words, or the acknowledgement of a remote store. -/
  | value (lo hi : Word)
  /-- A refusal code from another node (20 R439). -/
  | refused (code : Nat)
  /-- The status of a barrier (09 R236). -/
  | status (n : Nat)
  deriving DecidableEq, Repr

/-- One architectural context (02 R32; 07 R163 to R166; 17 R376). -/
structure Thread where
  x : Vector Word 32
  taint : BitVec 32
  v : Vector VWord 32
  p : BitVec 8
  e : Vector Word 8
  rs : Vector Word 8
  spilld : BitVec 6
  lact0 : Bool
  lact1 : Bool
  lcount0 : BitVec 24
  lcount1 : BitVec 24
  lend : BitVec 56
  llen0 : BitVec 10
  llen1 : BitVec 10
  dend : BitVec 10
  pc : BitVec 56
  fstat : BitVec 7
  kind : TKind
  supervisor : Bool
  part : Nat
  dom : Nat
  hdr : Header
  spanOff : Nat
  spanLen : Nat
  ownOff : Nat
  ownLen : Nat
  frameBase : Word
  homeCluster : Nat
  future : Word
  task : Option (Nat × Nat)
  /-- The cluster and first unit of a task's frame, which stays there (03 R81). -/
  frameAt : Option (Nat × Nat)
  gang : Option Nat
  gangIndex : Nat
  clsel : BitVec 9
  lqsel : BitVec 12
  frames : List TFrame
  level : Nat
  /-- The cycle from which its time in the slot counts: its dispatch or its last ERET; waiting counts too (17 R381). -/
  held : Nat
  dispatched : Nat
  wait : Wait
  acc : List Access
  nextId : Nat
  /-- Lines that a release at .p still has to publish, with the address of the store's instruction (05 R125). -/
  wset : List (Nat × Nat)
  /-- Those of them that a G = 0 atomic wrote, whose copies go on every die (05 R125). -/
  aset : List Nat
  deferred : List Deferred
  trap : Option TrapReq
  /-- What an ERET under way has reloaded of the image (17 R374). -/
  reload : List Byte
  /-- Whether a PREEMPT waits for the ERET of a trap that was delivered before it (17 R367). -/
  preemptDue : Bool
  /-- Halfwords fetched beyond the instruction at PC, by address (05 R134, 09 R237). -/
  ahead : Map Nat
  /-- The PC at which an instruction waits for the thread's accesses, and the cycle since which it does (20 R437). -/
  stuck : Option (Nat × Nat)
  deriving DecidableEq, Repr

/-- An address as PC holds it: bit 0 is always 0 (07 R163). -/
def evenPc (pc : BitVec 56) : BitVec 56 := pc &&& 0xFFFFFFFFFFFFFE

/-- The registers of a thread at its first instruction, every declared register zero (02 R39); registers beyond the
declared counts are zero too (log entry 9: DESIGN CHOICE, unsafe). -/
def Thread.fresh (pc : BitVec 56) (kind : TKind) (part dom : Nat) (hdr : Header) : Thread where
  x := Vector.replicate 32 0
  taint := 0
  v := Vector.replicate 32 0
  p := 1
  e := Vector.replicate 8 0
  rs := Vector.replicate 8 0
  spilld := 0
  lact0 := false
  lact1 := false
  lcount0 := 0
  lcount1 := 0
  lend := 0
  llen0 := 0
  llen1 := 0
  dend := 0
  pc := evenPc pc
  fstat := 0
  kind := kind
  supervisor := kind == .supervisor
  part := part
  dom := dom
  hdr := hdr
  spanOff := 0
  spanLen := 0
  ownOff := 0
  ownLen := 0
  frameBase := 0
  homeCluster := 0
  future := 0
  task := .none
  frameAt := .none
  gang := .none
  gangIndex := 0
  clsel := 0x1FF
  lqsel := 0
  frames := []
  level := 0
  held := 0
  dispatched := 0
  wait := .none
  acc := []
  nextId := 0
  wset := []
  aset := []
  deferred := []
  trap := .none
  reload := []
  preemptDue := false
  ahead := []
  stuck := .none

/-- A line of a core's L1, or of its instruction cache (04 R96, 05 R119, R134). -/
structure CacheLine where
  part : Nat
  line : Nat
  /-- The place of the line's home, as the translation that filled the line gave it (04 R105, R109). -/
  pa : Nat
  data : List Byte
  isSealed : Bool
  /-- Whether the granule came poisoned (21 R441). -/
  bad : Bool
  deriving DecidableEq, Repr

/-- A contour register (09 R238). -/
structure Contour where
  base : Nat
  limit : Nat
  low : Word
  high : Word
  fmt : Nat
  act : Nat
  count : BitVec 32
  deriving DecidableEq, Repr

/-- The state of a contour register at both resets (09 R238; the items beside ACT and COUNT: log entry 9: DESIGN CHOICE, unsafe). -/
def Contour.inactive : Contour := ⟨0, 0, 0, 0, 0, 0, 0⟩

/-- One 64-byte record of an injection or receive queue group: an active message keeps its two records as one entry of
the list, `size` counting the records it occupies (02 R55). -/
structure Record where
  words : List Word
  size : Nat
  dest : Nat
  class1 : Bool
  /-- An engine command instead of a message (12 R305): its number among the commands. -/
  command : Option Nat
  /-- Whether the send released at .c only, so that the handler's start drops no line (02 R58). -/
  coreScope : Bool
  /-- The reply tag of the packet that brought or takes it. -/
  tag : Nat
  /-- STEP as it stood when the record entered the injection queue (15 R341). -/
  step : Nat
  /-- The request of an RLD, an RST or an access to another node, in place of a message (15 R337). -/
  request : Option Packet
  deriving DecidableEq, Repr

/-- A code-carrying message that a receive unit runs (02 R59): its record, its private registers, the words it has still to
run, and the stores it has issued that have not performed, by place (05 R119). -/
structure CodeRun where
  record : Record
  regs : Thread
  words : List Nat
  sq : List (Nat × List Byte)
  deriving DecidableEq, Repr

/-- The instruction in the matrix unit (11 R261): a multiply with the window offset of A and the plane stride, or a tile
load. -/
inductive MxOp where
  | mm (pair : Nat) (z : ZTile) (u : Bool) (abase ps : Nat)
  | zld (z : ZTile) (fmt : Nat)
  deriving DecidableEq, Repr

/-- The matrix unit's occupancy (11 R261, R270, R271): the operation, the issuing slot while its thread is there, the
granules captured so far by window offset (a tile load: by offset in its operand), how many it takes, the scale bytes,
and whether the operands pass on when all are captured (R272). -/
structure MxJob where
  op : MxOp
  slot : Option Nat
  got : Map (List Byte)
  need : Nat
  vscale : List Byte
  pass : Bool
  deriving DecidableEq, Repr

/-- A core (07 R164, R178; 03 R80, R83; 04 R87, R93, R96; 11 R262; 21 R442). -/
structure Core where
  sleepCfg : Nat
  clsSplit : Nat
  mxOwn : Nat
  h3 : Bool
  clsNow : Nat
  mxNow : Nat
  h3Now : Bool
  srstate : Word
  tfullA : Bool
  tfullB : Bool
  contours : Map Contour
  semWait : List (Nat × Nat)
  plb : List PlbEntry
  l1 : List CacheLine
  icache : List CacheLine
  fused : Option Nat
  inj : List Record
  rx : List Record
  /-- A message of the receive queue that waits for its handler to start, with the header checked (02 R56). -/
  handlerHead : Option (Record × Header)
  /-- The code-carrying message that the receive unit runs (02 R59). -/
  code : Option CodeRun
  lastSlot : Nat
  /-- The cycle in which a slot that is not allocation-stalled last issued (19 R403). -/
  lastIssue : Nat
  /-- The cycle from which every slot has been empty or waiting, while that holds (03 R83). -/
  restSince : Nat
  depth : Nat
  mx : Option MxJob
  /-- Passes not yet delivered: to the south or west, the granules that are still to be written, and the operand (11 R272). -/
  passOut : List (Bool × List Nat × List Byte)
  latchJob : List (Bool × Nat)
  killed : Bool
  /-- Poison that an agent of the core has consumed, until CORE_KILL acts on it: SRC of the syndrome, and the granule (21 R441,
  R442, R445). -/
  consumed : Option (Nat × Nat)
  sealedRx : Bool
  deriving DecidableEq, Repr

/-- A core at either reset (07 R178, 06 R151, 11 R262, 09 R238); the items without a stated value: log entry 9: DESIGN CHOICE,
unsafe. -/
def Core.reset : Core where
  sleepCfg := 0
  clsSplit := 0
  mxOwn := 0
  h3 := false
  clsNow := 0
  mxNow := 0
  h3Now := false
  srstate := 0x9E3779B97F4A7C15
  tfullA := false
  tfullB := false
  contours := []
  semWait := []
  plb := []
  l1 := []
  icache := []
  fused := .none
  inj := []
  rx := []
  handlerHead := .none
  code := .none
  lastSlot := 3
  lastIssue := 0
  restSince := 0
  depth := 0
  mx := .none
  passOut := []
  latchJob := []
  killed := false
  consumed := .none
  sealedRx := false

/-- A ring of a cluster (04 R99). -/
structure Ring where
  en : Bool
  slotm1 : Nat
  slotsz : Nat
  base : Nat
  filled : Nat
  free : Nat
  rd : Nat
  wr : Nat
  deriving DecidableEq, Repr

/-- RING_CFG and RING_PTR at reset (04 R99). -/
def Ring.reset : Ring := ⟨false, 0, 6, 0, 0, 0, 0, 0⟩

/-- What produces a future's value (12 R292). -/
inductive Producer where
  | none
  | task
  | gang
  | command
  | remote
  deriving DecidableEq, Repr

/-- A waiter of an entry (02 R47, 12 R290): the thread key when it waits in a slot, or the parked task of a cluster; a
waiter of another node is the endpoint and the tag of its request. The receive unit of a core waits for the answer to a request
of a code-carrying message (02 R59). -/
inductive Waiter where
  | slot (t : Nat)
  | parked (cl task : Nat)
  | node (ep tag : Nat)
  | code (c : Nat)
  deriving DecidableEq, Repr

/-- An entry of a future table (02 R43). `mark` names the launch record whose completion it carries (03 R67). -/
structure Future where
  gen : Nat
  part : Nat
  state : FState
  value : Word
  status : BitVec 16
  single : Bool
  linked : Bool
  producer : Producer
  /-- In the order recorded; true for a TOUCH.Q. -/
  waiters : List (Waiter × Bool)
  mark : Option Nat
  order : Nat
  deriving DecidableEq, Repr

/-- A spill record that a cluster's spill area holds (02 R46): the entry it is of, its place in the area, and the flags. VALUE
and STATUS are read back from the record (log entry 13: DESIGN CHOICE, unsafe). -/
structure Spill where
  slot : Nat
  gen : Nat
  part : Nat
  index : Nat
  single : Bool
  linked : Bool
  deriving DecidableEq, Repr

/-- States of a task (02 R37). DONE is the absence of the descriptor. -/
inductive TaskState where
  | waiting | queued | fetching | ready | running | parked
  deriving DecidableEq, Repr

/-- A task descriptor (02 R36). -/
structure Task where
  entry : Nat
  args : List Word
  tiles : List Word
  prio : Nat
  pdef : Bool
  restart : Bool
  linked : Bool
  count : Nat
  future : Word
  parent : Word
  dom : Nat
  part : Nat
  state : TaskState
  frame : Option Nat
  hdr : Option Header
  restarts : Nat
  level : Nat
  since : Nat
  clsCore : Option (Nat × Nat)
  /-- Lines of its tile arguments that the tile copier has still to load: source address and place (02 R38). -/
  fetch : List (Nat × Nat)
  /-- Lines that it has loaded and not stored: place and bytes (02 R38, 05 R116). -/
  fill : List (Nat × List Byte)
  /-- Whether it was preempted since its dispatch: FCAN leaves it as it leaves a PARKED task (17 R380). -/
  preempted : Bool
  deriving DecidableEq, Repr

/-- An entry of a cluster's run queue (02 R49, R61): a task, its level, whether in the front band, and the cycle it
joined. -/
structure RqEntry where
  task : Nat
  level : Nat
  front : Bool
  /-- The cycle from which its ageing counts. -/
  since : Nat
  /-- The cycle in which it joined the queue: its wait (17 R379). -/
  joined : Nat
  deriving DecidableEq, Repr

/-- An operation on its way to a future table (02 R44, 12 R294). -/
inductive FutOp where
  | resolve (f : Word) (value : Word) (status : BitVec 16)
  | poison (f : Word) (status : BitVec 16)
  | poisonVal (f : Word) (value : Word) (status : BitVec 16)
  | dec (f : Word)
  | cancel (f : Word)
  deriving DecidableEq, Repr

/-- A cluster (04 R86, R98, R99; 02 R36, R41 to R49; 03 R76 to R79; 07 R181; 19 R400 to R403; 21 R454). -/
structure Cluster where
  ringArea : Nat
  parkArea : Nat
  rings : Map Ring
  fspillBase : Nat
  fspillSize : Nat
  pspillBase : Nat
  pspillSize : Nat
  spillRefused : Bool
  futures : Map Future
  gens : Map Nat
  spills : List Spill
  resolveCount : Nat
  tasks : Map Task
  runq : List RqEntry
  parked : Map Thread
  parkOrder : List Nat
  parkSpilled : List Nat
  /-- The 64-byte units that hold a parked task's image: of the park area, or of the spill area when it is spilled (03
  R78). -/
  parkAt : Map (List Nat)
  frames : List (Nat × Nat)
  cls : List (Nat × Nat × Nat)
  /-- Allocation stalls in the order they began: thread key, kind (0 an entry, 1 with a descriptor, 2 with a place in the
  pool) and the cycle (19 R400). -/
  stalls : List (Nat × Nat × Nat)
  stallSince : Nat
  /-- Whether the cluster is spilling towards 3,072 entries (02 R46). -/
  spilling : Bool
  posted : List FutOp
  cancels : List Word
  lastPreempt : Nat
  lastSteal : Nat
  clockMax : Nat
  contained : Bool
  deriving DecidableEq, Repr

/-- A cluster at reset (04 R98, R99; 07 R181; 21 R454 for the clock); tables empty. -/
def Cluster.reset : Cluster where
  ringArea := 0
  parkArea := 0
  rings := []
  fspillBase := 0
  fspillSize := 0
  pspillBase := 0
  pspillSize := 0
  spillRefused := false
  futures := []
  gens := []
  spills := []
  resolveCount := 0
  tasks := []
  runq := []
  parked := []
  parkOrder := []
  parkSpilled := []
  parkAt := []
  frames := []
  cls := []
  stalls := []
  stallSince := 0
  spilling := false
  posted := []
  cancels := []
  lastPreempt := 0
  lastSteal := 0
  clockMax := 0x1E
  contained := false

/-- A copy of a line in a die's lookup slice, with the DIRTY mask (05 R119). -/
structure CopyLine where
  die : Nat
  line : Nat
  /-- The place of the line's home, as the translation that filled the copy gave it (04 R105). -/
  pa : Nat
  data : List Byte
  dirty : BitVec 64
  /-- The W bit of the translation that filled it (20 R425). -/
  w : Bool
  /-- Whether it was filled through a SEALED PLB entry (04 R114). -/
  isSealed : Bool
  /-- Whether the granule came poisoned (21 R441). -/
  bad : Bool
  deriving DecidableEq, Repr

/-- A line in the L2 of its home die, by virtual address (04 R102): its place in HBM, and the bytes that a write-back has
still to bring there. -/
structure HomeLine where
  line : Nat
  pa : Nat
  data : List Byte
  dirty : BitVec 64
  /-- The W bit of the translation that filled it (20 R425). -/
  w : Bool
  /-- Whether the granule is poisoned (21 R440, R441). -/
  bad : Bool
  deriving DecidableEq, Repr

/-- A lazy step that has been scheduled (05 R119). -/
inductive Lazy where
  | forward (die line : Nat)
  | remove (die line : Nat)
  deriving DecidableEq, Repr

/-- An entry of a slice translation cache (04 R105, R107): die 6 stands for the control die; `pa` is the place address of
the page. -/
structure Xlate where
  die : Nat
  slice : Nat
  page : Nat
  size : Nat
  pa : Nat
  w : Bool
  atom : Bool
  /-- The stage-1 level of its leaf (20 R423). -/
  level : Nat
  deriving DecidableEq, Repr

/-- An entry of the walkers' caches (04 R103, R105): the stage-1 entry of a level that the addresses from `base` share,
tagged with its partition and the partition's generation. -/
structure WalkEntry where
  part : Nat
  pgen : Nat
  level : Nat
  base : Nat
  entry : Nat
  deriving DecidableEq, Repr

/-- A launch queue (03 R64, R68; 04 R90). -/
structure LaunchQueue where
  base : Nat
  enable : Bool
  mapped : Bool
  pending : Bool
  prio : Nat
  size : Nat
  head : Nat
  tail : Nat
  dom : Nat
  pendingSince : Nat
  idleSince : Nat
  headSince : Nat
  record : Option (List Word)
  /-- The bytes of its head record that have been read, until all of them have (03 R67, 05 R116). -/
  begun : List Byte
  refusedRead : Bool
  deriving DecidableEq, Repr

/-- A launch queue at reset (03 R64). -/
def LaunchQueue.reset : LaunchQueue :=
  ⟨0, false, false, false, 0, 4, 0, 0, 0, 0, 0, 0, .none, [], false⟩

/-- An entry of a pending-launch pool (03 R75). -/
structure PoolEntry where
  entry : Nat
  ctl : Word
  args : List Word
  dom : Nat
  future : Word
  seq : Nat
  since : Nat
  deriving DecidableEq, Repr

/-- An event that waits for delivery as MCHECK (21 R445, R446). -/
structure Mcheck where
  syndrome : Word
  deriving DecidableEq, Repr

/-- The Proof engine's state for one partition (16 R350 to R361): the outstanding CUT with its step, group descriptor,
storage endpoints and image base; whether the cut has been taken; the image by partition-physical granule with the marks
still set; packets held; the channel log; the totals INJ and ARR, the running ones, INJ at the cut and the arrivals with a
later tag; what has been copied, drained and acknowledged. -/
structure Proof where
  armed : Option Nat
  step : Nat
  group : Nat
  stores : List Nat
  imgBase : Nat
  /-- DRAINSH (16 R350, R357). -/
  drainShare : Nat
  armedAt : Nat
  taken : Bool
  takenAt : Nat
  image : List (Nat × List Byte)
  marked : List Nat
  /-- Granules copied by copy-on-write and not yet drained, each with the granule of the reserve that holds it (16 R356). -/
  copied : List (Nat × Nat)
  held : List Packet
  log : List Byte
  logOpen : Bool
  injected : Nat
  arrived : Nat
  injCut : Nat
  late : Nat
  /-- Arrivals whose tag was STEPDONE or later, by tag (16 R358). -/
  early : Map Nat
  /-- The records whose drain has begun, in its order (16 R356, R357). -/
  order : List Nat
  drained : Nat
  acks : Nat
  /-- The number of the CUT, which the packets of its drain carry as TAG (16 R361; log entry 28: DESIGN CHOICE, unsafe). -/
  serial : Nat
  /-- The cycle in which a packet of its drain was last sent (16 R467). -/
  sentAt : Nat
  /-- The future of the last CUT that it took up, which is outstanding until that is terminal (16 R351, R467). -/
  lastFuture : Word
  deriving DecidableEq, Repr

/-- A Proof engine with nothing outstanding. -/
def Proof.idle : Proof where
  armed := .none
  step := 0
  group := 0
  stores := []
  imgBase := 0
  drainShare := 0
  armedAt := 0
  taken := false
  takenAt := 0
  image := []
  marked := []
  copied := []
  held := []
  log := []
  logOpen := false
  injected := 0
  arrived := 0
  injCut := 0
  late := 0
  early := []
  order := []
  drained := 0
  acks := 0
  serial := 0
  sentAt := 0
  lastFuture := 0

/-- TDISP states (15 R344). -/
inductive Tdisp where
  | unlocked | locked | run | error
  deriving DecidableEq, Repr

/-- A partition (01 R23; 04 R89 to R91, R108, R113; 07 R182; 17 R376; 22 R462, R464; 15 R335, R344, R345). -/
structure Part where
  live : Bool
  granules : List Nat
  pgen : Nat
  job : Nat
  domains : Nat
  queueCount : Nat
  minSlots : Nat
  /-- F[p], its share of each port in 1/256 (15 R336). -/
  share : Nat
  /-- MIN[p], its minimum of receive slots at a gateway (15 R335). -/
  minFlits : Nat
  entry : Nat
  domBase : Nat
  hdom : Nat
  fdom : Nat
  s1root : Nat
  memSize : Nat
  stvec : Nat
  tfBase : Nat
  gpe : Bool
  quantum : Nat
  twait : Nat
  gsaveBase : Nat
  gsaveSize : Nat
  stage2 : List Nat
  s2refused : List Nat
  /-- Host pages of 4 KiB that the IOMMU maps for the virtual function, with their write permission (04 R109). -/
  iommu : List (Nat × Bool)
  reserve : List Nat
  seals : List (Nat × Nat)
  counters : Map Nat
  mchecks : List Mcheck
  /-- The syndrome of the kill with which the supervisor thread was lost, until it is launched again (21 R443, R447). -/
  relaunch : Option Word
  /-- Whether a teardown has begun, the fences that have not returned, and the cycle in which the last one did (22 R462). -/
  ending : Bool
  fences : Nat
  fencedAt : Nat
  measurement : List Byte
  /-- The tenant sealing secret, once provisioned (16 R359). -/
  secret : Option (List Byte)
  frozen : Bool
  launched : Bool
  /-- Logged messages of a restored image, until the first launch is accepted (16 R362). -/
  restored : List Packet
  tdisp : Tdisp
  /-- The key of the virtual function's selective IDE stream; empty where the host has set none (15 R344). -/
  ideKey : List Byte
  queues : Map LaunchQueue
  pool : List PoolEntry
  copies : List CopyLine
  /-- Lines in the L2 of their home dies (04 R102). -/
  lines : List HomeLine
  delayed : List Lazy
  xcache : List Xlate
  /-- The address of the tagging group's descriptor, the one with PROOF = 1 (15 R340, R341). -/
  tagging : Option Nat
  /-- The tag and the members of each class-2 command that has ended, whose late blocks are discarded (15 R338; log entry 117: DESIGN
  CHOICE, unsafe). -/
  stippled : List (Nat × List Nat)
  /-- The slot to which the supervisor thread is to move (03 R73). -/
  moveTo : Option Nat
  proof : Proof
  deriving DecidableEq, Repr

/-- A partition that does not exist, and the registers of one that has just been created (07 R182, 17 R376, 03 R64). -/
def Part.absent : Part where
  live := false
  granules := []
  pgen := 0
  job := 0
  domains := 0
  queueCount := 0
  minSlots := 0
  share := 0
  minFlits := 0
  entry := 0
  domBase := 0
  hdom := 0
  fdom := 0
  s1root := 0
  memSize := 0
  stvec := 0
  tfBase := 0
  gpe := false
  quantum := 0
  twait := 0
  gsaveBase := 0
  gsaveSize := 0
  stage2 := []
  s2refused := []
  iommu := []
  reserve := []
  seals := []
  counters := []
  mchecks := []
  relaunch := .none
  ending := false
  fences := 0
  fencedAt := 0
  measurement := List.replicate 64 0
  secret := none
  frozen := false
  launched := false
  restored := []
  tdisp := .unlocked
  ideKey := []
  queues := []
  pool := []
  copies := []
  lines := []
  delayed := []
  xcache := []
  tagging := .none
  stippled := []
  moveTo := .none
  proof := .idle

/-- An open phase of a gang's barrier channel: the phase mask, and the threads that have arrived (09 R236). -/
structure Phase where
  mask : Nat
  arrivals : List Nat
  deriving DecidableEq, Repr

/-- A gang from its placement to its retirement (02 R50, R51; 03 R72; 17 R382 to R385). -/
structure Gang where
  part : Nat
  dom : Nat
  entry : Nat
  hdr : Header
  prio : Nat
  args : List Word
  future : Word
  slots : List Nat
  clusters : List Nat
  frames : List (Nat × Nat)
  spans : List (Nat × Nat)
  fused : Bool
  started : Bool
  startedAt : Nat
  live : Nat
  /-- Whether its threads have been stopped for a preemption that is not yet complete (17 R383). -/
  stopping : Bool
  preempted : Bool
  saved : Map Thread
  savedPlaces : List (Nat × List Byte)
  savedCores : Map Core
  /-- The granules of its saved places that were poisoned (21 R441). -/
  savedBad : List Nat
  /-- The lines of its save that are still to be written: address and bytes (17 R384, 05 R116). -/
  writes : List (Nat × List Byte)
  /-- The 64 KiB units of the save area that hold its save (17 R384). -/
  saveAt : List Nat
  die : Bool
  deriving DecidableEq, Repr

/-- An accepted launch record that awaits completion (03 R67). -/
structure Accepted where
  part : Nat
  queue : Nat
  future : Word
  caddr : Nat
  ctag : Nat
  index : Nat
  done : Bool
  deriving DecidableEq, Repr

/-- A completion notice on its way to the distributor (03 R67). -/
structure Notice where
  record : Nat
  value : Word
  status : BitVec 16
  deriving DecidableEq, Repr

/-- A completion whose words the distributor writes, one by one (03 R67): the first has been written once `second`. -/
structure Completion where
  part : Nat
  caddr : Nat
  ctag : Nat
  value : Word
  status : BitVec 16
  second : Bool
  deriving DecidableEq, Repr

/-- A cluster's free-resource report (03 R71): the view the distributor places against. -/
structure Report where
  slots : List Nat
  cls : List Nat
  frame : Nat
  descriptors : Nat
  queued : Nat
  time : Nat
  deriving DecidableEq, Repr

/-- The master distributor (03 R63, R68 to R71). -/
structure Dist where
  slots : List (Nat × Nat)
  views : Map Report
  /-- The figures that each cluster reported last (03 R71). -/
  reported : Map Report
  accepted : Map Accepted
  nextRecord : Nat
  notices : List Notice
  /-- Completions of which a word is still to be written (03 R67). -/
  writes : List Completion
  lastSource : Nat
  /-- The rise of a source's effective priority, with the head record that has waited for it (03 R70). -/
  boosts : Map (Nat × Nat)
  /-- The head of a source that a cluster has refused, with the cycle of the refusal (03 R71). -/
  refusedAt : Map (Nat × Nat)
  deriving DecidableEq, Repr

/-- The distributor with nothing mapped (03 R68). -/
def Dist.reset : Dist := ⟨[], [], [], [], 0, [], [], 0, [], []⟩

/-- A store that an engine's hart has issued and not performed (05 R119, R132): a part inside one granule, the ATOM right of
the region it was checked against, the block, element or granule that it belongs to, and its place once the whole of that has
been accepted (18 R398, 20 R432, R433). -/
structure EngStore where
  va : Nat
  data : List Byte
  atom : Bool
  unit : Nat
  place : Option Nat
  deriving DecidableEq, Repr

/-- An engine command from its ENG to its completion (12 R304 to R310). -/
structure Command where
  engine : Nat
  op : Nat
  words : List Word
  dom : Nat
  part : Nat
  future : Word
  contours : Map Contour
  core : Nat
  cluster : Nat
  arrived : Bool
  started : Bool
  startedAt : Nat
  pos : Nat
  done : List Nat
  finished : Option (Nat × Word)
  cancelled : Bool
  /-- A collective's members, as nodes in rank order, and its own rank (15 R340). -/
  members : List Nat
  rank : Nat
  /-- Blocks of a class-2 destination that have arrived (15 R338). -/
  blocks : List Nat
  /-- Bytes that the hart has loaded, contributions that an ALLREDUCE has received, and step totals of a cut (12 R307 to R310,
  16 R358). -/
  got : Map (List Byte)
  /-- The hart's stores that have not performed (05 R119, R132). -/
  sq : List EngStore
  /-- Lines that its completion has still to publish (05 R125, R132). -/
  lines : List Nat
  /-- The ATOM right of the region of each operand range (12 R305). -/
  atoms : List Bool
  /-- How far a command that ends short goes, with its STATUS and VALUE (20 R432, R433). -/
  stop : Option (Nat × Nat × Word)
  /-- Whether a collective takes no more data: it writes its zeros, its mask or its sums (15 R338). -/
  closing : Bool
  /-- The request of an FCAN of another node that waits for the command's stores: its endpoint and tag (12 R292). -/
  fcan : Option (Nat × Nat)
  deriving DecidableEq, Repr

/-- A wake message from the cluster that owns a future to one that holds waiters of it (02 R47): each waiter, and whether
the future was consumed before it. -/
structure WakeMsg where
  cluster : Nat
  waiters : List (Waiter × Bool)
  handle : Word
  state : FState
  value : Word
  status : BitVec 16
  deriving DecidableEq, Repr

/-- A context that has left its core for another die (03 R81). -/
structure Transit where
  die : Nat
  thread : Thread
  deriving DecidableEq, Repr

/-- An RLD or RST on its way to its home in the package (12 R302, R303): the thread that waits for it and its access. -/
structure HomeOp where
  core : Nat
  part : Nat
  waiter : Waiter
  access : Access
  deriving DecidableEq, Repr

/-- An outstanding request to another node, by the core and the tag of its packet (15 R330): the thread that waits for the
reply, or the future it resolves. -/
structure Outstanding where
  core : Nat
  tag : Nat
  part : Nat
  ptype : Nat
  waiter : Option Waiter
  future : Word
  /-- Whether a touch has been recorded as a waiter at its owner, whose wake message serves it (02 R47). -/
  recorded : Bool
  /-- Whether the withdrawal of that waiter record is on its way (17 R366, R383). -/
  withdrawn : Bool
  deriving DecidableEq, Repr

/-- A flit in a port's replay buffer, as it was sent (15 R333), with the packets that end in it. -/
structure StoredFlit where
  seq : Nat
  packets : List Packet
  bytes : List Byte
  deriving DecidableEq, Repr

/-- A packet that a port has to send on, or has begun: the bytes that are left of it, and the gateway of the peer that takes its
flits, at which they have their slots (15 R335). -/
structure Sending where
  packet : Packet
  left : Nat
  gateway : Bool
  deriving DecidableEq, Repr

/-- A flit that holds a slot of a gateway's receive buffer (15 R335): its number, the gateway, its partition, and whether it
is one of class 3. -/
structure RxFlit where
  id : Nat
  gateway : Bool
  part : Option Nat
  managed : Bool
  deriving DecidableEq, Repr

/-- A packet that has arrived whole at a gateway, with the flits that brought it (15 R335). -/
structure Arrived where
  packet : Packet
  flits : List Nat
  deriving DecidableEq, Repr

/-- One edge port and its two gateways (01 R25; 15 R331 to R336; 22 R457 to R460, R465): its trained lanes, the next SEQ of
reliable and of stipple flits, the SEQ it expects of each, the replay buffer, the SEQ it last asked to be replayed and how
often in a row, the two key slots (an empty key is no key) as its sender and as its receiver use them, with the slot it sends
under and the last SEQ sent under the other, the counters of R465, the tokens of each partition in 1/256 of a flit, the
slots of each gateway of the peer that the flits of each partition hold, the packets it has to send on, the flits it has sent, the
times it has signalled link down to its peer, and on the receiving side the bytes of each FCLASS that make no whole packet
yet, the flits in the receive buffers and the packets that have arrived whole. -/
structure Port where
  lanes : Nat
  down : Bool
  retraining : Bool
  sendSeq : Nat
  stipSeq : Nat
  recvSeq : Nat
  stipRecv : Nat
  stored : List StoredFlit
  replaySeq : Nat
  replays : Nat
  keys : List (List Byte)
  peerKeys : List (List Byte)
  slot : Nat
  oldLast : Nat
  crcErr : Nat
  tagErr : Nat
  replayCount : Nat
  stipLost : Nat
  tokens : Map Nat
  spent : Map Nat
  sending : List Sending
  wire : List (List Byte)
  signals : Nat
  nextFlit : Nat
  streams : Map (List Byte × List Nat)
  held : List RxFlit
  gate : List Arrived
  deriving DecidableEq, Repr

/-- A port at cold reset, not yet trained. -/
def Port.reset : Port where
  lanes := 0
  down := false
  retraining := false
  sendSeq := 0
  stipSeq := 0
  recvSeq := 0
  stipRecv := 0
  stored := []
  replaySeq := 0
  replays := 0
  keys := [[], []]
  peerKeys := [[], []]
  slot := 0
  oldLast := 0
  crcErr := 0
  tagErr := 0
  replayCount := 0
  stipLost := 0
  tokens := []
  spent := []
  sending := []
  wire := []
  signals := 0
  nextFlit := 0
  streams := []
  held := []
  gate := []

/-- What the host asks of a function of the device (15 R342, R343): function 0 is the physical function, function n + 1 the
interface of partition n. -/
inductive HostAsk where
  /-- A configuration request. -/
  | config (function offset : Nat)
  /-- A read of BAR0. -/
  | barRead (function offset size : Nat)
  /-- A write of BAR0. -/
  | barWrite (function offset size data : Nat)
  deriving DecidableEq, Repr

/-- What a request of the host is answered with. -/
inductive HostReply where
  /-- Configuration retry (15 R347). -/
  | retry
  | data (value : Nat)
  deriving DecidableEq, Repr

/-- Ramzu and the package registers (01 R27; 15 R347, R349; 21 R446 to R455). -/
structure Package where
  node : Nat
  stage : Nat
  stepping : Nat
  clkMax : Nat
  clkFloor : Nat
  topo : Nat
  safe : Bool
  granUsable : Nat
  capCluster : List Nat
  capChan : List Nat
  /-- CAP_CLUSTER at the last reset, which places the reserved handler slots (01 R21, 21 R455). -/
  handlerCap : List Nat
  ports : Map Port
  kills : List (Nat × Nat)
  containments : List (Nat × Nat)
  log : List Word
  /-- Corrected errors, in the physical function's view (21 R440). -/
  corrected : Nat
  /-- Uncorrectable errors of HBM: the channel, numbered over the package, and the control-die cycle (21 R448). -/
  channelErrors : List (Nat × Nat)
  /-- The fused birth counts of each cluster's four ring-oscillator monitors (21 R454). -/
  births : Map (List Nat)
  measurement : List Byte
  /-- The seal counter of each job in the control die's replay-protected store (16 R361). -/
  sealCounters : Map Nat
  failedGroups : List Nat
  /-- Control-die cycles that passed before the last warm reset, for Ramzu's windows (21 R448). -/
  uptime : Nat
  /-- PGEN of each granule (22 R462). -/
  pgens : Map Nat
  /-- The caches of the page-table walkers (04 R103). -/
  walkers : List WalkEntry
  mgmtIn : List Packet
  /-- Answers in the DOE mailboxes (15 R345, 16 R468). -/
  doeOut : List (List Byte)
  /-- Answers to the host's requests on CXL.io (15 R342, R343). -/
  hostOut : List HostReply
  deriving DecidableEq, Repr

/-- A move of a cache or of a fetch that no instruction asks for, at a time that the spec leaves open (log entry 84:
DESIGN CHOICE, safe). -/
inductive CacheMove where
  /-- The dirty bytes of a line of a home's L2 go to HBM; the line stays (04 R102, R105). -/
  | writeBack (p die line : Nat)
  /-- A line leaves a home's L2, written back first (20 R430). -/
  | evict (p die line : Nat)
  /-- A slice translation cache loses the entry of an address (04 R105). -/
  | dropXlate (p die va : Nat)
  /-- The walkers' caches lose a partition's entries that an address uses (04 R103). -/
  | dropWalk (p va : Nat)
  /-- A core's instruction cache loses a line (05 R134). -/
  | dropIline (c p line : Nat)
  /-- The thread of a slot fetches a halfword ahead of its PC (05 R134). -/
  | fetchAhead (t va : Nat)
  deriving DecidableEq, Repr

/-- One turn of the model's schedule (log entry 2: DESIGN CHOICE, safe). -/
inductive Turn where
  /-- An operation of the machine; one whose condition does not hold has no effect (log entry 6: DESIGN CHOICE, safe). -/
  | event (i : Instr)
  /-- An issue cycle of a core. -/
  | core (c : Nat)
  /-- Cycles in which nothing issues. -/
  | tick (n : Nat)
  /-- A move of a cache. -/
  | cache (m : CacheMove)
  /-- An RLD or RST performs at its home, by its place among those under way (12 R302, R303). -/
  | homeOp (k : Nat)
  /-- A request of the host on CXL.io (15 R342, R343). -/
  | host (q : HostAsk)
  /-- An error that the protection of a structure finds (21 R440). -/
  | error (e : HardwareError)
  deriving DecidableEq, Repr

/-- The whole package. Missing keys of `cores`, `clusters`, `parts` and `barriers` read as their reset values. -/
structure State where
  cur : Nat
  schedule : List Turn
  free : Nat
  now : Nat
  mem : Memory
  poison : List Nat
  /-- The 64 KiB granules of HBM that have been written since their partition was created (16 R355). -/
  touched : List Nat
  threads : Map Thread
  cores : Map Core
  clusters : Map Cluster
  parts : Map Part
  barriers : Map Phase
  gangs : Map Gang
  nextGang : Nat
  dist : Dist
  commands : Map Command
  nextCommand : Nat
  wakes : List WakeMsg
  transit : List Transit
  outstanding : List Outstanding
  homeOps : List HomeOp
  outbox : List Packet
  pkg : Package
  deriving DecidableEq, Repr

/-- The package registers right after cold reset, before bring-up has ended (15 R347): SAFE is 1, the fuse map is that of
a full part, and TOPO reads 0 (log entry 9: DESIGN CHOICE, unsafe). -/
def Package.reset : Package where
  node := 0
  stage := 0
  stepping := 0x01
  clkMax := 0x1E
  clkFloor := 0x14
  topo := 0
  safe := true
  granUsable := 0xFFFFFF
  capCluster := List.replicate 6 0xFFFFFFFFFFFFFFFF
  capChan := List.replicate 6 0xFFFFFFFFFFFFFFFF
  handlerCap := List.replicate 6 0xFFFFFFFFFFFFFFFF
  ports := []
  kills := []
  containments := []
  log := []
  corrected := 0
  channelErrors := []
  births := []
  measurement := []
  sealCounters := []
  failedGroups := []
  uptime := 0
  pgens := []
  walkers := []
  mgmtIn := []
  doeOut := []
  hostOut := []

/-- The package right after cold reset: no partition, no thread, memory with nothing listed. -/
def State.reset : State where
  cur := 0
  schedule := []
  free := 0
  now := 0
  mem := []
  poison := []
  touched := []
  threads := []
  cores := []
  clusters := []
  parts := []
  barriers := []
  gangs := []
  nextGang := 0
  dist := .reset
  commands := []
  nextCommand := 0
  wakes := []
  transit := []
  outstanding := []
  homeOps := []
  outbox := []
  pkg := .reset

end Sys2Proof.Machine
end

