-- ==== Sys2Proof/Machine/Mem.lean ====
section
/-!
DEFINITION. Accessors of the state, the numbering of units (spec/01 R19), and the memory of every place: one space of
place addresses with its reads and writes (spec/05 R118).
-/

namespace Sys2Proof.Machine

/-! ## Numbering (01 R19, R21, R23) -/

/-- The compute die of a core. -/
def dieOfCore (c : Nat) : Nat := c / 1024

/-- The cluster of a core: d × 64 + f × 16 + (y >> 2) × 4 + (x >> 2). -/
def clusterOfCore (c : Nat) : Nat := c / 256 * 16 + c % 256 / 16 / 4 * 4 + c % 16 / 4

/-- The granule, which is also the global field, of a core. -/
def granuleOfCore (c : Nat) : Nat := c / 256

/-- The compute die of a cluster. -/
def dieOfCluster (cl : Nat) : Nat := cl / 64

/-- The granule of a cluster. -/
def granuleOfCluster (cl : Nat) : Nat := cl / 16

/-- Core number j, from 0 to 15, of a cluster, in the order (y mod 4) × 4 + (x mod 4) (07 R177). -/
def coreOfCluster (cl j : Nat) : Nat :=
  cl / 16 * 256 + (cl % 16 / 4 * 4 + j / 4) * 16 + cl % 4 * 4 + j % 4

/-- The control die as a place of agents and homes (05 R117). -/
def controlDie : Nat := 6

/-- The core of a thread key, core × 4 + slot. -/
def coreOfKey (t : Nat) : Nat := t / 4

/-- PRESENT of a cluster in CAP_CLUSTER_d (01 R27). -/
def Package.present (k : Package) (cl : Nat) : Bool :=
  ((k.capCluster[cl / 64]?).getD 0).testBit (cl % 64)

/-- The core whose slot 3 a field reserves for handlers at reset: the lowest-numbered core of the field's lowest-numbered
present cluster (01 R21). -/
def Package.handlerCore (k : Package) (f : Nat) : Option Nat :=
  let first := (List.range 16).find? fun q => ((k.handlerCap[f / 4]?).getD 0).testBit (f % 4 * 16 + q)
  first.map fun q => coreOfCluster (f * 16 + q) 0

/-! ## Accessors -/

/-- A core, at its reset value when nothing has changed it; H3 is 1 on the core R21 names (07 R178). -/
def State.core (s : State) (c : Nat) : Core :=
  match s.cores.find c with
  | some k => k
  | none =>
    let h := s.pkg.handlerCore (c / 256) == some c
    { Core.reset with h3 := h, h3Now := h }

/-- The state with a core replaced. -/
def State.setCore (s : State) (c : Nat) (k : Core) : State := { s with cores := s.cores.put c k }

/-- A cluster. -/
def State.cluster (s : State) (cl : Nat) : Cluster := (s.clusters.find cl).getD .reset

/-- The state with a cluster replaced. -/
def State.setCluster (s : State) (cl : Nat) (k : Cluster) : State := { s with clusters := s.clusters.put cl k }

/-- The state with a command replaced. -/
def State.setCommand (s : State) (n : Nat) (c : Command) : State := { s with commands := s.commands.put n c }

/-- A partition. -/
def State.part (s : State) (p : Nat) : Part := (s.parts.find p).getD .absent

/-- The state with a partition replaced. -/
def State.setPart (s : State) (p : Nat) (k : Part) : State := { s with parts := s.parts.put p k }

/-- The thread in a slot. -/
def State.thread (s : State) (t : Nat) : Option Thread := s.threads.find t

/-- The state with the thread of a slot replaced. -/
def State.setThread (s : State) (t : Nat) (th : Thread) : State := { s with threads := s.threads.put t th }

/-! ## Counter numbers (22 R464) -/

/-- Counter STALEFDEC. -/
def ctrStalefdec : Nat := 0

/-- Counter SPILLFULL. -/
def ctrSpillfull : Nat := 1

/-- Counter SPILLREF. -/
def ctrSpillref : Nat := 2

/-- Counter PARKHOLD. -/
def ctrParkhold : Nat := 3

/-- Counter EXHAUST. -/
def ctrExhaust : Nat := 4

/-- Counter HDRFAIL. -/
def ctrHdrfail : Nat := 5

/-- Counter TILEFAIL. -/
def ctrTilefail : Nat := 6

/-- Counter RESTART. -/
def ctrRestart : Nat := 7

/-- Counter LQOVER. -/
def ctrLqover : Nat := 8

/-- Counter CMPLREF. -/
def ctrCmplref : Nat := 9

/-- Counter S2REF. -/
def ctrS2ref : Nat := 10

/-- Counter ACKLOST. -/
def ctrAcklost : Nat := 11

/-- Counter REMREF. -/
def ctrRemref : Nat := 12

/-- Counter DBLTRAP. -/
def ctrDbltrap : Nat := 13

/-- Counter MSGFAULT. -/
def ctrMsgfault : Nat := 14

/-- Counter MCHKLOST. -/
def ctrMchklost : Nat := 15

/-- Counter STIPDROP. -/
def ctrStipdrop : Nat := 16

/-- Counter ERRREPLY. -/
def ctrErrreply : Nat := 17

/-- Counter PGENDROP. -/
def ctrPgendrop : Nat := 18

/-- Counter MSGDROP. -/
def ctrMsgdrop : Nat := 19

/-- Counter PROOFREF. -/
def ctrProofref : Nat := 20

/-- Counter ATTFAIL. -/
def ctrAttfail : Nat := 21

/-- The state with a partition counter advanced by one, saturating at 48 bits (22 R464). -/
def State.count (s : State) (p n : Nat) : State :=
  let k := s.part p
  s.setPart p { k with counters := k.counters.put n (Nat.min (2 ^ 48 - 1) ((k.counters.find n).getD 0 + 1)) }

/-- A ring of a cluster. -/
def Cluster.ring (k : Cluster) (n : Nat) : Ring := (k.rings.find n).getD .reset

/-- A contour register of a core. -/
def Core.contour (k : Core) (n : Nat) : Contour := (k.contours.find n).getD .inactive

/-- The generation of a partition's granule owner: the partition that holds a granule. -/
def State.ownerOfGranule (s : State) (g : Nat) : Option Nat :=
  (s.parts.find? fun e => e.2.live && e.2.granules.contains g).map (·.1)

/-- Whether a cluster is present and lies in a granule of a partition (04 R86). -/
def State.ownsCluster (s : State) (p cl : Nat) : Bool :=
  decide (cl < 384) && s.pkg.present cl && (s.part p).granules.contains (granuleOfCluster cl)

/-! ## Memory of every place

Place addresses: HBM by device-physical address (04 R104), host memory by I/O virtual address, tile stores by cluster and
offset (04 R86), and each core's window by offset, its tiles above it. -/

/-- Host memory at an I/O virtual address of a partition's virtual function (04 R108). -/
def hostPlace (p iova : Nat) : Nat := 2 ^ 60 + p * 2 ^ 47 + iova

/-- A byte of a cluster's tile store. -/
def tilePlace (cl off : Nat) : Nat := 2 ^ 52 + cl * 2 ^ 21 + off

/-- A byte of a core's private window, by its offset (04 R87). -/
def windowPlace (c off : Nat) : Nat := 2 ^ 53 + c * 2 ^ 26 + off

/-- Window offset of semaphore n (04 R87). -/
def semOffset (n : Nat) : Nat := 0x01002000 + 8 * n

/-- Window offset of the A or B operand latch (04 R87). -/
def latchOffset (b : Bool) : Nat := if b then 0x01004000 else 0x01003000

/-- Place of byte `off` of tile z of a core (07 R164): 4 KiB each, above the window, reached by no address. -/
def ztilePlace (c : Nat) (z : ZTile) (off : Nat) : Nat := windowPlace c (0x02000000 + z.val * 4096 + off)

/-- The byte at a place address; an unlisted address reads zero (log entry 1: DESIGN CHOICE, unsafe). -/
def Memory.read (m : Memory) (a : Nat) : Byte :=
  match m with
  | [] => 0
  | (b, v) :: rest => if b = a then v else Memory.read rest a

/-- The cells of a byte string at a place address, without the zero bytes. -/
def cellsOf : Nat → List Byte → Memory
  | _, [] => []
  | a, v :: vs => if v = 0 then cellsOf (a + 1) vs else (a, v) :: cellsOf (a + 1) vs

/-- Memory with a byte string stored at a place address, in canonical form. -/
def Memory.write (m : Memory) (a : Nat) (bs : List Byte) : Memory :=
  m.filter (fun c => decide (c.1 < a)) ++ cellsOf a bs ++ m.filter (fun c => decide (a + bs.length ≤ c.1))

/-- Consecutive bytes at a place address. -/
def Memory.readBytes (m : Memory) (a : Nat) : Nat → List Byte
  | 0 => []
  | n + 1 => m.read a :: Memory.readBytes m (a + 1) n

/-- The state with bytes stored at a place. A step that writes a whole 64-byte granule clears its poison (21 R441). -/
def State.store (s : State) (a : Nat) (bs : List Byte) : State :=
  { s with
    mem := s.mem.write a bs
    touched := if a < 2 ^ 40 && !s.touched.contains (a / 65536) then a / 65536 :: s.touched else s.touched
    poison := s.poison.filter fun g => !(decide (a ≤ g) && decide (g + 64 ≤ a + bs.length)) }

/-- Whether the granule of a place in memory is poisoned (21 R440). -/
def State.isPoisoned (s : State) (pa : Nat) : Bool := s.poison.contains (pa / 64 * 64)

/-- Bytes at a place. -/
def State.load (s : State) (a n : Nat) : List Byte := s.mem.readBytes a n

/-- A little-endian 64-bit word at a place (00 R6). -/
def State.loadWord (s : State) (a : Nat) : Word := BitVec.ofNat 64 (leNat (s.load a 8))

/-- The state with a 64-bit word stored at a place. -/
def State.storeWord (s : State) (a : Nat) (w : Word) : State := s.store a (leBytes 8 w.toNat)

/-- A free value of the machine's own (log entry 10: DESIGN CHOICE, safe), and the state that has taken it. -/
def State.takeFree (s : State) : Word × State := (Config.freeWord s.free, { s with free := s.free + 1 })

/-- Undefined contents, drawn as R4 allows: each of `n` bytes keeps what the place held or becomes zero, and which is free
(00 R4; log entry 10: DESIGN CHOICE, safe). -/
def State.scramble (s : State) (a n : Nat) : State :=
  if n = 0 then s
  else
    let bs := (s.load a n).mapIdx fun i b => if (Config.freeWord (s.free + i / 64)).getLsbD (i % 64) then b else 0
    { s.store a bs with free := s.free + n / 64 + 1 }

/-! ## Slots that become empty (04 R95; 07 R178; 06 R162) -/

/-- Whether every slot of a core is empty. -/
def State.coreEmpty (s : State) (c : Nat) : Bool := (List.range 4).all fun j => (s.thread (c * 4 + j)).isNone

/-- CLSSPLIT takes effect at the first cycle in which all four slots are empty: banks that become cache start empty,
and those that become CLS with undefined contents (04 R95)
(log entry 53: DEDUCED, safe). -/
def State.clssplitChange (s : State) (c : Nat) : State :=
  let k := s.core c
  if s.coreEmpty c && k.clsNow != k.clsSplit then
    let s := s.setCore c { k with clsNow := k.clsSplit, l1 := [] }
    s.scramble (windowPlace c (k.clsNow * 0x10000)) ((k.clsSplit - k.clsNow) * 0x10000)
  else s

/-- MXOWN takes effect at the first cycle in which all four slots are empty (07 R178). -/
def State.mxownChange (s : State) (c : Nat) : State :=
  let k := s.core c
  if s.coreEmpty c then s.setCore c { k with mxNow := k.mxOwn } else s

/-- H3 takes effect at the first cycle in which slot 3 is empty (07 R178). -/
def State.h3Change (s : State) (c : Nat) : State :=
  let k := s.core c
  if (s.thread (c * 4 + 3)).isNone then s.setCore c { k with h3Now := k.h3 } else s

/-- The changes of CORECFG that wait for empty slots take effect where their slots are empty now (04 R95, 07 R178). -/
def State.coreChanges (s : State) (c : Nat) : State := ((s.clssplitChange c).mxownChange c).h3Change c

/-- Whether a wait leaves its slot waiting (02 R33). -/
def Wait.rests : Wait → Bool
  | .touch _ | .reply _ | .home | .ring .. | .watch _ | .sem .. | .barrier .. | .released .. | .sleep _ | .yielded => true
  | _ => false

/-- Whether a thread of a slot is a task thread that keeps it for the answer of another node, which leaves it active (02 R33; 12
R283). -/
def State.keepsForAnswer (s : State) (t : Nat) (th : Thread) : Bool :=
  th.kind == .task && !th.supervisor && match th.wait with
    | .reply tag => s.outstanding.any fun o => o.core == coreOfKey t && o.tag == tag && o.waiter == some (.slot t)
    | _ => false

/-- Whether the thread of a slot waits there (02 R33). -/
def State.waits (s : State) (t : Nat) (th : Thread) : Bool := th.wait.rests && !s.keepsForAnswer t th

/-- Whether the thread of a slot keeps its core from resting (03 R83). -/
def State.slotActive (s : State) (t : Nat) : Bool :=
  match s.thread t with
  | some th => th.trap.isSome || !s.waits t th
  | none => false

/-- The state with a slot empty: the matrix unit no longer has a thread to report to (06 R162), the sleep depth counts from
now when the slot was active (03 R83), and what CORECFG has left pending takes effect. -/
def State.dropThread (s : State) (t : Nat) : State :=
  let rest := if s.slotActive t then s.now else (s.core (t / 4)).restSince
  let s := { s with threads := s.threads.erase t }
  let k := s.core (t / 4)
  let mx := k.mx.map fun j => if j.slot = some (t % 4) then { j with slot := none } else j
  (s.setCore (t / 4) { k with mx := mx, restSince := rest }).coreChanges (t / 4)

/-- A byte list with some of its bytes replaced from an offset. -/
def patch (line : List Byte) (off : Nat) (bs : List Byte) : List Byte :=
  line.take off ++ bs ++ line.drop (off + bs.length)

/-- The DIRTY mask of `n` bytes from an offset within a line (05 R121). -/
def byteMask (off n : Nat) : BitVec 64 := BitVec.ofNat 64 ((2 ^ n - 1) * 2 ^ off)

/-- The bytes of one list under a mask, of another elsewhere (05 R121, forward). -/
def mergeMask (mask : BitVec 64) (i : Nat) : List Byte → List Byte → List Byte
  | a :: as, b :: bs => (if mask.getLsbD i then a else b) :: mergeMask mask (i + 1) as bs
  | _, bs => bs

/-! ## The proof reserve (16 R355, R356) -/

/-- The 64 KiB granule of a partition that stage 2 maps to a place. -/
def Part.granuleAt (k : Part) (pa : Nat) : Option Nat := k.stage2.findIdx? (· == pa / 65536 * 65536)

/-- Bytes of the proof reserve in use: by copied granules, held packets and the channel log (16 R354, R356, R358). -/
def Part.reserveUsed (k : Part) : Nat :=
  k.proof.copied.length * 65536 + (k.proof.held.map fun q => 32 + q.len).foldl (· + ·) 0 + k.proof.log.length

/-- Bytes of the proof reserve that nothing occupies. -/
def Part.reserveFree (k : Part) : Nat := k.reserve.length * 65536 - k.reserveUsed

/-- The granule of the reserve that a copy takes: the lowest that holds none (log entry 13: DESIGN CHOICE, unsafe). -/
def Part.reserveSlot (k : Part) : Option Nat :=
  (k.reserve.find? fun r => !k.proof.copied.any (·.2 == r)).filter fun _ => decide (65536 ≤ k.reserveFree)

/-! ## Lines at their homes (04 R102; 20 R430) -/

/-- The die whose HBM holds a place; host memory is homed on the control die (04 R102, R109). -/
def homeDie (pa : Nat) : Nat := if pa < 2 ^ 40 then pa / 2 ^ 35 / 4 else controlDie

/-- What a place holds of a line: the bytes, whether they are poisoned, the place of its home, and where it was found. -/
structure LineData where
  data : List Byte
  bad : Bool
  pa : Nat
  /-- Where it was found, as SRC of the syndrome names it: 4 an L2, 5 HBM, 2 an L1 (21 R445). -/
  src : Nat
  deriving DecidableEq, Repr

/-- The line that the L2 of a home die holds for a virtual address (04 R102). -/
def Part.homeOf (k : Part) (die line : Nat) : Option HomeLine :=
  k.lines.find? fun h => h.line == line && homeDie h.pa == die

/-- The lines at homes without one. -/
def Part.dropHome (k : Part) (die line : Nat) : Part :=
  { k with lines := k.lines.filter fun h => !(h.line == line && homeDie h.pa == die) }

/-- The lines at homes with one entered or replaced. -/
def Part.putHome (k : Part) (h : HomeLine) : Part :=
  { k.dropHome (homeDie h.pa) h.line with lines := h :: (k.dropHome (homeDie h.pa) h.line).lines }

/-- HOME[L] (05 R119): the line in the L2 of its home, else HBM or host memory. -/
def State.homeData (s : State) (p line pa : Nat) : LineData :=
  match (s.part p).homeOf (homeDie pa) line with
  | some h => ⟨h.data, h.bad, h.pa, 4⟩
  | none => ⟨s.load pa 64, s.isPoisoned pa, pa, 5⟩

/-- Bytes of HOME[L] from an offset within the line. -/
def State.homeBytes (s : State) (p va pa n : Nat) : List Byte :=
  ((s.homeData p (va / 64 * 64) (pa / 64 * 64)).data.drop (va % 64)).take n

/-- The L2 of the home allocates a line on an access to it, with the W bit of the translation (04 R102, 20 R425); host
memory has none (R109). -/
def State.fetchHome (s : State) (p line pa : Nat) (w : Bool) : State :=
  if 2 ^ 40 ≤ pa then s
  else
    match (s.part p).homeOf (homeDie pa) line with
    | some h => if w && !h.w then s.setPart p ((s.part p).putHome { h with w := true }) else s
    | none => s.setPart p ((s.part p).putHome ⟨line, pa, s.load pa 64, 0, w, s.isPoisoned pa⟩)

/-- The 64 KiB granule of a place of HBM has been written (16 R355). -/
def State.touch (s : State) (pa : Nat) : State :=
  if s.touched.contains (pa / 65536) then s else { s with touched := pa / 65536 :: s.touched }

/-- The dirty bytes of a line go to a place in memory, poison with them (04 R102; 21 R441). -/
def State.writeBackAt (s : State) (h : HomeLine) (pa : Nat) : State :=
  if h.dirty = 0 then s
  else
    let bs := mergeMask h.dirty 0 h.data (s.load pa 64)
    let rest := s.poison.filter (· != pa)
    let was := s.isPoisoned pa && h.dirty != BitVec.allOnes 64
    { s.store pa bs with poison := if h.bad || was then pa :: rest else rest }

/-- Write a home's line to HBM, and keep it (04 R102, 09 R237). -/
def State.writeBack (s : State) (p : Nat) (h : HomeLine) : State :=
  (s.writeBackAt h h.pa).setPart p ((s.part p).putHome { h with dirty := 0 })

/-- Bytes of HBM as the partition's page-table walkers and its image read them, a place at a time: the lines of the L2 that
hold them are written back first in effect (log entry 4: DEDUCED, safe). -/
def State.loadHbm (s : State) (p pa n : Nat) : List Byte :=
  (s.part p).lines.foldl (fun bs h =>
    if h.dirty = 0 ∨ h.pa + 64 ≤ pa ∨ pa + n ≤ h.pa then bs
    else bs.mapIdx fun i b =>
      let j := pa + i - h.pa
      if h.pa ≤ pa + i ∧ j < 64 ∧ h.dirty.getLsbD j then (h.data[j]?).getD b else b) (s.load pa n)

/-- Bits hi down to lo of a word. -/
def wbits (w : Word) (hi lo : Nat) : Nat := w.toNat / 2 ^ lo % 2 ^ (hi + 1 - lo)

/-- Bits hi down to lo of a number. -/
def bitsOf (n hi lo : Nat) : Nat := n / 2 ^ lo % 2 ^ (hi + 1 - lo)

/-! ## Codes and handles -/

/-- Cause codes (17 R364). -/
def Cause.code : Cause → Nat
  | .illegal => 0x01
  | .resource => 0x02
  | .priv => 0x03
  | .align => 0x04
  | .prot => 0x05
  | .page => 0x06
  | .stage2 => 0x07
  | .sealwr => 0x08
  | .atomattr => 0x09
  | .rstack => 0x0A
  | .loopnest => 0x0B
  | .futbad => 0x0C
  | .futpoison => 0x0D
  | .futexhaust => 0x0E
  | .futcancel => 0x0F
  | .contour => 0x10
  | .acklost => 0x11
  | .remote => 0x12
  | .mxowner => 0x13
  | .ringbad => 0x14
  | .queue => 0x15
  | .mcheck => 0x16
  | .brk => 0x17
  | .syscall => 0x18
  | .preempt => 0x19

/-- The fields of a future handle (02 R41). -/
def handleNode (f : Word) : Nat := wbits f 63 47

/-- CLUSTER of a handle. -/
def handleCluster (f : Word) : Nat := wbits f 46 38

/-- SLOT of a handle. -/
def handleSlot (f : Word) : Nat := wbits f 37 26

/-- GEN of a handle. -/
def handleGen (f : Word) : Nat := wbits f 25 5

/-- PART of a handle. -/
def handlePart (f : Word) : Nat := wbits f 4 0

/-- A handle from its fields (02 R41). -/
def mkHandle (node cl slot gen part : Nat) : Word :=
  BitVec.ofNat 64 (node * 2 ^ 47 + cl * 2 ^ 38 + slot * 2 ^ 26 + gen * 2 ^ 5 + part)

/-- The cluster of this node from which an operation on a handle of another node leaves: the lowest that is present in the
partition, and where it has none the lowest of the package, since no endpoint of an absent one is issued (01 R20; log entry 12:
DEDUCED, unsafe). -/
def State.senderCluster (s : State) (p : Nat) : Nat :=
  let own := (List.range 384).find? fun cl => s.pkg.present cl && (s.part p).granules.contains (granuleOfCluster cl)
  (own.orElse fun _ => (List.range 384).find? s.pkg.present).getD 0

/-- An operation on its way to the future table of a handle's owner, on another node by way of a cluster of this one (02
R44). -/
def State.post (s : State) (f : Word) (op : FutOp) : State :=
  let cl := if handleNode f = s.pkg.node then handleCluster f else s.senderCluster (handlePart f)
  let k := s.cluster cl
  s.setCluster cl { k with posted := k.posted ++ [op] }

/-! ## Registers of a thread (07 R163) -/

/-- X[r]; x0 reads zero. -/
def Thread.getX (t : Thread) (r : Reg) : Word := if r = 0 then 0 else t.x[r]

/-- TAINT[r]; x0 never carries taint (05 R130). -/
def Thread.getTaint (t : Thread) (r : Reg) : Bool := r != 0 && t.taint.getLsbD r.val

/-- A mask with bit `n` set or clear. -/
def setBit {k : Nat} (m : BitVec k) (n : Nat) (b : Bool) : BitVec k :=
  let one := BitVec.ofNat k (2 ^ n)
  if b then m ||| one else m &&& ~~~one

/-- Write X[r] and TAINT[r]; a write to x0 is discarded. -/
def Thread.setX (t : Thread) (r : Reg) (w : Word) (taint : Bool) : Thread :=
  if r = 0 then t else { t with x := t.x.set r w, taint := setBit t.taint r.val taint }

/-- P[n]; p0 reads 1. -/
def Thread.getP (t : Thread) (n : Reg8) : Bool := n == 0 || t.p.getLsbD n.val

/-- Write P[n]; a write to p0 is discarded. -/
def Thread.setP (t : Thread) (n : Reg8) (b : Bool) : Thread :=
  if n = 0 then t else { t with p := setBit t.p n.val b }

/-- V[r]. -/
def Thread.getV (t : Thread) (r : Reg) : VWord := t.v[r]

/-- Write V[r]. -/
def Thread.setV (t : Thread) (r : Reg) (w : VWord) : Thread := { t with v := t.v.set r w }

/-- E[n]. -/
def Thread.getE (t : Thread) (n : Reg8) : Word := t.e[n]

/-- Write E[n]. -/
def Thread.setE (t : Thread) (n : Reg8) (w : Word) : Thread := { t with e := t.e.set n w }

/-- Whether a guard holds (07 R170): P[GRD], negated by NEG. -/
def Thread.guardTrue (t : Thread) (g : Guard) : Bool := t.getP g.p != g.neg

/-- Registers by number, for the register fields that follow an even one. -/
def regNat (n : Nat) : Reg := Fin.ofNat 32 n

end Sys2Proof.Machine
end

