-- ==== Sys2Proof/Machine/Flags.lean ====
section
/-!
DEFINITION. FSTAT, the sticky arithmetic flags of a thread (spec/06 R161, R162).
-/

namespace Sys2Proof.Machine

/-- The flags one instruction raises, over all its lanes or elements (06 R161). -/
structure Raised where
  nx : Bool
  uf : Bool
  of : Bool
  dz : Bool
  nv : Bool
  isat : Bool
  csat : Bool
  deriving DecidableEq, Repr

/-- No flag. -/
def Raised.none : Raised := ⟨false, false, false, false, false, false, false⟩

/-- Inexact alone. -/
def Raised.onlyNx : Raised := { Raised.none with nx := true }

/-- Invalid operation alone. -/
def Raised.onlyNv : Raised := { Raised.none with nv := true }

/-- The union of two sets of flags. -/
def Raised.or (a b : Raised) : Raised :=
  ⟨a.nx || b.nx, a.uf || b.uf, a.of || b.of, a.dz || b.dz, a.nv || b.nv, a.isat || b.isat, a.csat || b.csat⟩

/-- The flags of many lanes together. -/
def Raised.union (l : List Raised) : Raised := l.foldl Raised.or .none

/-- The bits of FSTAT (06 R161): CSAT ISAT NV DZ OF UF NX, high to low. -/
def Raised.toBits (r : Raised) : BitVec 7 :=
  BitVec.ofNat 7 (bit r.csat * 64 + bit r.isat * 32 + bit r.nv * 16 + bit r.dz * 8 + bit r.of * 4 + bit r.uf * 2
    + bit r.nx)

/-- Hardware only ever sets FSTAT bits: an instruction ORs its flags in when it completes (06 R162). -/
def Thread.raise (t : Thread) (r : Raised) : Thread := { t with fstat := t.fstat ||| r.toBits }

end Sys2Proof.Machine
end

