-- ==== Sys2Proof/Machine/Number.lean ====
section
/-!
DEFINITION. Number formats and exact arithmetic (spec/06 R141 to R160): the value of a code, rounding to nearest even and
stochastic rounding, conversion with its flags, and IEEE arithmetic on exact values.
-/

namespace Sys2Proof.Machine

/-! ## Formats (06 R141, R143, R146) -/

/-- A floating-point format: exponent bits, fraction bits, bias, and whether an all-ones exponent is special. -/
structure FloatFmt where
  ebits : Nat
  mbits : Nat
  bias : Int
  ieee : Bool
  deriving DecidableEq, Repr

/-- Width of an element in bits (06 R141). -/
def fmtWidth (fmt : Nat) : Nat :=
  if fmt = 0x00 ∨ fmt = 0x15 then 32
  else if fmt = 0x01 ∨ fmt = 0x02 ∨ fmt = 0x08 then 16
  else if fmt = 0x03 ∨ fmt = 0x04 ∨ fmt = 0x09 ∨ fmt = 0x0A ∨ fmt = 0x17 then 8
  else if fmt = 0x05 ∨ fmt = 0x06 then 6
  else if fmt = 0x07 ∨ fmt = 0x0B ∨ fmt = 0x0C then 4
  else if 0x0D ≤ fmt ∧ fmt ≤ 0x13 then fmt - 0x0B
  else 64

/-- The floating-point formats of R143. -/
def floatFmt (fmt : Nat) : Option FloatFmt :=
  match fmt with
  | 0x00 => some ⟨8, 23, 127, true⟩
  | 0x01 => some ⟨5, 10, 15, true⟩
  | 0x02 => some ⟨8, 7, 127, true⟩
  | 0x03 => some ⟨4, 3, 7, false⟩
  | 0x04 => some ⟨5, 2, 15, false⟩
  | 0x05 => some ⟨3, 2, 3, false⟩
  | 0x06 => some ⟨2, 3, 1, false⟩
  | 0x07 => some ⟨2, 1, 1, false⟩
  | 0x14 => some ⟨11, 52, 1023, true⟩
  | _ => none

/-- Whether an integer format is unsigned (06 R146). -/
def fmtUnsigned (fmt : Nat) : Bool := fmt == 0x0A || fmt == 0x0C

/-- emax of a format: its top normal exponent (06 R143). -/
def FloatFmt.emax (f : FloatFmt) : Int := 2 ^ f.ebits - (if f.ieee then 2 else 1) - f.bias

/-- The exponent of the least significant bit of a subnormal. -/
def FloatFmt.lsb (f : FloatFmt) : Int := 1 - f.bias - f.mbits

/-- The magnitude code of infinity in an IEEE format; one above the largest finite code in a narrow one. -/
def FloatFmt.limit (f : FloatFmt) : Nat :=
  if f.ieee then (2 ^ f.ebits - 1) * 2 ^ f.mbits else 2 ^ (f.ebits + f.mbits)

/-- The sign bit of a format. -/
def FloatFmt.signBit (f : FloatFmt) : Nat := 2 ^ (f.ebits + f.mbits)

/-- A code from its sign and magnitude. -/
def FloatFmt.code (f : FloatFmt) (neg : Bool) (mag : Nat) : Nat := (if neg then f.signBit else 0) + mag

/-- The canonical quiet NaN (06 R159). -/
def FloatFmt.nan (f : FloatFmt) : Nat := (2 ^ f.ebits - 1) * 2 ^ f.mbits + 2 ^ (f.mbits - 1)

/-! ## Values -/

/-- An exact value: (−1)^neg × m × 2^e, an infinity, or a NaN. -/
inductive Num where
  | nan (signalling : Bool)
  | inf (neg : Bool)
  | fin (neg : Bool) (m : Nat) (e : Int)
  deriving DecidableEq, Repr

/-- The value of an integer. -/
def Num.ofInt (z : Int) : Num := .fin (decide (z < 0)) z.natAbs 0

/-- The value of a floating-point code (06 R143). -/
def FloatFmt.value (f : FloatFmt) (c : Nat) : Num :=
  let neg := c / f.signBit % 2 == 1
  let ex := c / 2 ^ f.mbits % 2 ^ f.ebits
  let m := c % 2 ^ f.mbits
  if f.ieee && ex == 2 ^ f.ebits - 1 then
    if m = 0 then .inf neg else .nan (decide (m < 2 ^ (f.mbits - 1)))
  else if ex = 0 then .fin neg m f.lsb
  else .fin neg (2 ^ f.mbits + m) (f.lsb + (ex : Int) - 1)

/-- The integer a two's complement or unsigned code stands for. -/
def intValue (fmt c : Nat) : Int :=
  let w := fmtWidth fmt
  let c := c % 2 ^ w
  if fmtUnsigned fmt || decide (2 * c < 2 ^ w) then (c : Int) else (c : Int) - 2 ^ w

/-- The value of an element's code in any element format. -/
def fmtValue (fmt c : Nat) : Num :=
  match floatFmt fmt with
  | some f => f.value c
  | none => .ofInt (intValue fmt c)

/-- The negation of a value. -/
def Num.neg : Num → Num
  | .nan q => .nan q
  | .inf n => .inf (!n)
  | .fin n m e => .fin (!n) m e

/-- Whether a value is a NaN. -/
def Num.isNan : Num → Bool
  | .nan _ => true
  | _ => false

/-- Whether a value is a signalling NaN. -/
def Num.isSignalling : Num → Bool
  | .nan q => q
  | _ => false

/-- A value times a power of two. -/
def Num.scale (v : Num) (k : Int) : Num :=
  match v with
  | .fin n m e => .fin n m (e + k)
  | v => v

/-- A finite value as an integer multiple of 2^e, for an e no greater than its own exponent. -/
def scaled (neg : Bool) (m : Nat) (e lo : Int) : Int :=
  let z : Int := (m * 2 ^ (e - lo).toNat : Nat)
  if neg then -z else z

/-- The order of two values that are not NaN: negative when the first is less; zeros of both signs are equal. -/
def Num.cmp : Num → Num → Int
  | .inf a, .inf b => if a = b then 0 else if a then -1 else 1
  | .inf a, _ => if a then -1 else 1
  | _, .inf b => if b then 1 else -1
  | .fin na ma ea, .fin nb mb eb =>
    let lo := min ea eb
    (scaled na ma ea lo - scaled nb mb eb lo).sign
  | _, _ => 0

/-! ## Rounding (00 R15, 06 R149, R150) -/

/-- How an exact value is rounded. -/
inductive Rounding where
  | rne
  /-- Stochastic, with its 32-bit random word. -/
  | sr (r : Nat)
  deriving DecidableEq, Repr

/-- A magnitude m × 2^e, with something below the last bit of m when `sticky`, rounded to a multiple of 2^lsb: the multiple
and whether it is inexact. `neg` is the sign of the value, which stochastic rounding needs. -/
def roundAt (mode : Rounding) (neg : Bool) (m : Nat) (e : Int) (sticky : Bool) (lsb : Int) : Nat × Bool :=
  if lsb ≤ e then (m * 2 ^ (e - lsb).toNat, sticky)
  else
    let sh := (lsb - e).toNat
    let q := m / 2 ^ sh
    let r := m % 2 ^ sh
    let up := match mode with
      | .rne => decide (2 ^ sh < 2 * r) || (2 * r == 2 ^ sh && (sticky || q % 2 == 1))
      | .sr w =>
        if r = 0 then false
        else if neg then !decide (w < 2 ^ 32 * (2 ^ sh - r) / 2 ^ sh)
        else decide (w < 2 ^ 32 * r / 2 ^ sh)
    (if up then q + 1 else q, r != 0 || sticky)

/-- A finite value rounded to a floating-point format, with its flags. Narrow formats saturate, IEEE formats overflow to
infinity; tininess is detected after rounding (06 R149, R159)
(log entry 59: DEDUCED, unsafe). -/
def FloatFmt.round (f : FloatFmt) (mode : Rounding) (neg : Bool) (m : Nat) (e : Int) (sticky : Bool) : Nat × Raised :=
  if m = 0 && !sticky then (f.code neg 0, .none)
  else
    let free := (Nat.log2 m : Int) + e - f.mbits
    let lsb := max f.lsb free
    let (q, nx) := roundAt mode neg m e sticky lsb
    let mag := (lsb - f.lsb).toNat * 2 ^ f.mbits + q
    let tiny := decide (free < f.lsb)
      && decide ((roundAt mode neg m e sticky free).1 < 2 ^ (f.mbits + (f.lsb - free).toNat))
    if f.limit ≤ mag then
      if f.ieee then (f.code neg f.limit, { Raised.none with of := true, nx := true })
      else (f.code neg (f.limit - 1), { Raised.none with csat := true, nx := true })
    else (f.code neg mag, { Raised.none with nx := nx, uf := f.ieee && tiny && nx })

/-- The bounds of an integer format. -/
def intBounds (fmt : Nat) : Int × Int :=
  let w := fmtWidth fmt
  if fmtUnsigned fmt then (0, 2 ^ w - 1) else (-(2 ^ (w - 1)), 2 ^ (w - 1) - 1)

/-- The code of an integer in a format of its width. -/
def intCode (fmt : Nat) (z : Int) : Nat := (z % 2 ^ fmtWidth fmt).toNat

/-- An integer clamped to a format's range. -/
def satInt (fmt : Nat) (z : Int) : Int :=
  let (lo, hi) := intBounds fmt
  max lo (min hi z)

/-- Conversion of a value to a format with its flags (06 R149). -/
def convert (fmt : Nat) (mode : Rounding) (v : Num) : Nat × Raised :=
  match floatFmt fmt with
  | some f =>
    match v with
    | .nan q => if f.ieee then (f.nan, { Raised.none with nv := q }) else (0, { Raised.none with nv := true, nx := true })
    | .inf n =>
      if f.ieee then (f.code n f.limit, .none) else (f.code n (f.limit - 1), { Raised.none with csat := true, nx := true })
    | .fin n m e => f.round mode n m e false
  | none =>
    let (lo, hi) := intBounds fmt
    match v with
    | .nan _ => (0, { Raised.none with nv := true, nx := true })
    | .inf n => (intCode fmt (if n then lo else hi), { Raised.none with csat := true, nx := true })
    | .fin n m e =>
      let (q, nx) := roundAt mode n m e false 0
      let z : Int := if n then -(q : Int) else q
      let c := satInt fmt z
      (intCode fmt c, { Raised.none with nx := nx || c != z, csat := c != z })

/-! ## Exact arithmetic (06 R156, R159; 10 R248, R249) -/

/-- The sum of two values, and NV. An exact zero sum is +0 unless both terms are zeros of one sign. -/
def Num.add (a b : Num) : Num × Bool :=
  let sig := a.isSignalling || b.isSignalling
  match a, b with
  | .nan _, _ => (.nan false, sig)
  | _, .nan _ => (.nan false, sig)
  | .inf x, .inf y => if x = y then (.inf x, false) else (.nan false, true)
  | .inf x, _ => (.inf x, false)
  | _, .inf y => (.inf y, false)
  | .fin na ma ea, .fin nb mb eb =>
    let lo := min ea eb
    let z := scaled na ma ea lo + scaled nb mb eb lo
    if z = 0 then (.fin (decide (ma = 0) && decide (mb = 0) && na && nb) 0 lo, false)
    else (.fin (decide (z < 0)) z.natAbs lo, false)

/-- The product of two values, and NV. -/
def Num.mul (a b : Num) : Num × Bool :=
  let sig := a.isSignalling || b.isSignalling
  match a, b with
  | .nan _, _ => (.nan false, sig)
  | _, .nan _ => (.nan false, sig)
  | .inf x, .inf y => (.inf (x != y), false)
  | .inf x, .fin n m _ => if m = 0 then (.nan false, true) else (.inf (x != n), false)
  | .fin n m _, .inf y => if m = 0 then (.nan false, true) else (.inf (n != y), false)
  | .fin na ma ea, .fin nb mb eb => (.fin (na != nb) (ma * mb) (ea + eb), false)

/-- A value in an IEEE format, with NV of the operation that formed it. -/
def FloatFmt.result (f : FloatFmt) (v : Num × Bool) : Nat × Raised :=
  match v.1 with
  | .nan _ => (f.nan, { Raised.none with nv := v.2 })
  | .inf n => (f.code n f.limit, { Raised.none with nv := v.2 })
  | .fin n m e =>
    let (c, r) := f.round .rne n m e false
    (c, { r with nv := v.2 })

/-- The quotient of two values, rounded once (10 R248, R259). -/
def FloatFmt.quotient (f : FloatFmt) (a b : Num) : Nat × Raised :=
  let sig := a.isSignalling || b.isSignalling
  match a, b with
  | .nan _, _ => (f.nan, { Raised.none with nv := sig })
  | _, .nan _ => (f.nan, { Raised.none with nv := sig })
  | .inf _, .inf _ => (f.nan, .onlyNv)
  | .inf x, .fin n _ _ => (f.code (x != n) f.limit, .none)
  | .fin n _ _, .inf y => (f.code (n != y) 0, .none)
  | .fin na ma ea, .fin nb mb eb =>
    if mb = 0 then
      if ma = 0 then (f.nan, .onlyNv) else (f.code (na != nb) f.limit, { Raised.none with dz := true })
    else if ma = 0 then (f.code (na != nb) 0, .none)
    else
      let k := Nat.log2 mb + f.mbits + 4
      let q := ma * 2 ^ k / mb
      f.round .rne (na != nb) q (ea - eb - k) (decide (ma * 2 ^ k % mb ≠ 0))

/-- The integer square root, bit by bit from bit `n - 1`. -/
def rootBits (x : Nat) : Nat → Nat → Nat
  | 0, r => r
  | n + 1, r =>
    let c := r + 2 ^ n
    rootBits x n (if c * c ≤ x then c else r)

/-- The square root of a value, rounded once (10 R248). -/
def FloatFmt.root (f : FloatFmt) (a : Num) : Nat × Raised :=
  match a with
  | .nan q => (f.nan, { Raised.none with nv := q })
  | .inf n => if n then (f.nan, .onlyNv) else (f.code false f.limit, .none)
  | .fin n m e =>
    if m = 0 then (f.code n 0, .none)
    else if n then (f.nan, .onlyNv)
    else
      let k := 2 * f.mbits + 6 + (e % 2).toNat
      let x := m * 2 ^ k
      let r := rootBits x (f.mbits * 2 + 8) 0
      f.round .rne false r ((e - k) / 2) (decide (r * r ≠ x))

/-- The lesser (or greater) of two values in a format, −0 below +0 (10 R248). -/
def FloatFmt.extreme (f : FloatFmt) (greater : Bool) (ca cb : Nat) : Nat × Raised :=
  let a := f.value ca
  let b := f.value cb
  if a.isNan || b.isNan then (f.nan, { Raised.none with nv := a.isSignalling || b.isSignalling })
  else
    let c := a.cmp b
    let aLess := if c = 0 then decide (f.signBit ≤ ca) else decide (c < 0)
    (if aLess != greater then ca else cb, .none)

/-! ## The random generator (06 R151, R152) -/

/-- One step of the generator. -/
def srStep (s : Word) : Word :=
  let s := s ^^^ (s <<< 13)
  let s := s ^^^ (s >>> 7)
  s ^^^ (s <<< 17)

/-- The 32-bit draws of `n` step pairs, and the state after them. -/
def srDraws : Nat → Word → List Nat × Word
  | 0, s => ([], s)
  | n + 1, s =>
    let s := srStep s
    let (rest, s') := srDraws n s
    (wbits s 31 0 :: wbits s 63 32 :: rest, s')

/-! ## Blocks (06 R145, R153, R154) -/

/-- floor(log2) of a finite nonzero magnitude. -/
def floorLog2 (m : Nat) (e : Int) : Int := (Nat.log2 m : Int) + e

/-- The greatest finite magnitude's floor(log2), none when every value is zero; infinite when one is. -/
def blockTop (vs : List Num) : Option Int :=
  vs.foldl
    (fun t v => match v with
      | .fin _ m e =>
        if m = 0 then t
        else
          match t with
          | none => some (floorLog2 m e)
          | some k => some (max k (floorLog2 m e))
      | _ => t)
    none

/-- encode_block (06 R154): the scale code, the element codes, and the flags. `modes` gives each element's rounding. -/
def encodeBlock (fmt : Nat) (f : FloatFmt) (vs : List Num) (modes : List Rounding) : Nat × List Nat × Raised :=
  if vs.any Num.isNan then (0xFF, vs.map fun _ => 0, .onlyNv)
  else
    let infinite := vs.any fun v => match v with | .inf _ => true | _ => false
    match infinite, blockTop vs with
    | false, none => (0, vs.map fun v => (convert fmt .rne v).1, .none)
    | _, top =>
      let eb := if infinite then 127 else max (-127) (min 127 (top.getD 0 - f.emax))
      let rs := (vs.zip modes).map fun x => convert fmt x.2 (x.1.scale (-eb))
      ((eb + 127).toNat, rs.map (·.1), Raised.union (rs.map (·.2)))

end Sys2Proof.Machine
end

