-- ==== Sys2Proof/Machine/Contour.lean ====
section
/-!
DEFINITION. The contour registers' check of a write (spec/09 R238 to R241).
-/

namespace Sys2Proof.Machine

/-- A bound as a value: binary64 bits for a float FMT, a signed 64-bit integer otherwise (09 R238). -/
def boundValue (fmt : Nat) (w : Word) : Num :=
  if (floatFmt fmt).isSome then FloatFmt.value ⟨11, 52, 1023, true⟩ w.toNat else .ofInt w.toInt

/-- Whether a bound is a value of FMT (09 R239): no NaN, and infinities in the IEEE formats only. -/
def boundAdmitted (fmt : Nat) (w : Word) : Bool :=
  match boundValue fmt w with
  | .nan _ => false
  | .inf _ => ((floatFmt fmt).map (·.ieee)).getD false
  | .fin n m e => (convert fmt .rne (.fin n m e)).2 == .none

/-- The code that CLAMP writes for a bound; a zero bound is written as +0 (09 R241). -/
def boundCode (fmt : Nat) (w : Word) : Nat :=
  match boundValue fmt w with
  | .fin n m e => if m = 0 then 0 else (convert fmt .rne (.fin n m e)).1
  | v => (convert fmt .rne v).1

/-- What one element's check finds (09 R240). -/
inductive Ranged where
  | inside | below | above
  deriving DecidableEq, Repr

/-- Whether an element is out of range: NaN counts as below LOW, as CLAMP writes it (09 R240, R241). -/
def Contour.range (c : Contour) (code : Nat) : Ranged :=
  let v := fmtValue c.fmt code
  if v.isNan || decide (v.cmp (boundValue c.fmt c.low) < 0) then .below
  else if v.cmp (boundValue c.fmt c.high) > 0 then .above
  else .inside

/-- The numbers of the elements whose bytes a write of `size` bytes at `va` covers wholly, on the grid from BASE and within
the covered range (09 R240)
(log entry 60: DEDUCED, unsafe). -/
def Contour.elements (c : Contour) (va size : Nat) : List Nat :=
  let wid := fmtWidth c.fmt
  let lo := Nat.max va c.base
  let hi := Nat.min (va + size) c.limit
  if hi ≤ lo then []
  else
    let first := (8 * (lo - c.base) + wid - 1) / wid
    let last := 8 * (hi - c.base) / wid
    (List.range (last - first)).map (first + ·)

/-- Bit position within the write of element `j`. -/
def Contour.bitOf (c : Contour) (va j : Nat) : Nat := fmtWidth c.fmt * j + 8 * c.base - 8 * va

/-- Element `j` of a write. -/
def Contour.elem (c : Contour) (va data j : Nat) : Nat := data / 2 ^ c.bitOf va j % 2 ^ fmtWidth c.fmt

/-- A number with a field of bits replaced. -/
def putBits (data pos wid v : Nat) : Nat := data - data / 2 ^ pos % 2 ^ wid * 2 ^ pos + v * 2 ^ pos

/-- The data after CLAMP of the out-of-range elements. -/
def Contour.clamp (c : Contour) (va data : Nat) : List Nat → Nat
  | [] => data
  | j :: js =>
    let data := c.clamp va data js
    match c.range (c.elem va data j) with
    | .inside => data
    | .below => putBits data (c.bitOf va j) (fmtWidth c.fmt) (boundCode c.fmt c.low)
    | .above => putBits data (c.bitOf va j) (fmtWidth c.fmt) (boundCode c.fmt c.high)

/-- COUNT with elements added, saturating (09 R238). -/
def Contour.add (c : Contour) (n : Nat) : Contour :=
  { c with count := BitVec.ofNat 32 (Nat.min 0xFFFFFFFF (c.count.toNat + n)) }

/-- The outcome of a check: the data to write, or the register that trapped with the address of the first failing
element. -/
inductive Contoured where
  | pass (data : Nat)
  | trap (n addr : Nat)
  deriving DecidableEq, Repr

/-- Apply the registers from number `n`, `fuel` of them, to a write (09 R241). -/
def contourFrom (va size : Nat) : Nat → Nat → Map Contour → Nat → Map Contour × Contoured
  | 0, _, cs, data => (cs, .pass data)
  | fuel + 1, n, cs, data =>
    match cs.find n with
    | none => contourFrom va size fuel (n + 1) cs data
    | some c =>
      if c.act = 0 then contourFrom va size fuel (n + 1) cs data
      else
        let bad := (c.elements va size).filter fun j => c.range (c.elem va data j) != .inside
        let cs := if bad.isEmpty then cs else cs.put n (c.add bad.length)
        match c.act, bad with
        | 3, j :: _ => (cs, .trap n (c.base + fmtWidth c.fmt * j / 8))
        | 2, _ => contourFrom va size fuel (n + 1) cs (c.clamp va data bad)
        | _, _ => contourFrom va size fuel (n + 1) cs data

/-- The contour check of a write by the sixteen registers, in ascending order (09 R241). -/
def contourCheck (cs : Map Contour) (va : Nat) (data : List Byte) : Map Contour × Contoured :=
  contourFrom va data.length 16 0 cs (leNat data)

end Sys2Proof.Machine
end

