-- ==== Sys2Proof/Machine/Operands.lean ====
section
/-!
DEFINITION. Operand forms: immediates, effective addresses (spec/09 R218), and for every instruction word the registers
and resources it reads, writes or implies, which the header check (spec/07 R173), the issue rule (spec/05 R123) and the
delivery of deferred causes (spec/17 R366, spec/20 R426) rest on.
-/

namespace Sys2Proof.Machine

/-- sext of an immediate to 64 bits (00 R15). -/
def sext {n : Nat} (i : BitVec n) : Word := i.signExtend 64

/-- zext of an immediate to 64 bits (00 R15). -/
def zext {n : Nat} (i : BitVec n) : Word := i.zeroExtend 64

/-- Bytes of an access width (09 R218). -/
def widthBytes (x : Width) : Nat :=
  match x with
  | .b => 1
  | .h => 2
  | .w => 4
  | .d => 8

/-- log2 of an access width. -/
def widthLog (x : Width) : Nat := x.code

/-- Base plus a signed displacement counted in access-size units (09 R218). -/
def effective {n : Nat} (base : Word) (disp : BitVec n) (size : Nat) : Word :=
  base + sext disp * BitVec.ofNat 64 size

/-- The CSR number of CSRR and CSRW, and the code of TRAP: high × 32 + low (08 R213, R216). -/
def tenBits (hi lo : Fin 32) : Nat := hi.val * 32 + lo.val

/-- The CSR numbers that R177 and 17 R376 assign. -/
def csrAssigned (n : Nat) : Bool :=
  n ≤ 5 || (0x020 ≤ n && n ≤ 0x025) || (0x030 ≤ n && n ≤ 0x05F) || (0x080 ≤ n && n ≤ 0x08D)
    || (0x0C0 ≤ n && n ≤ 0x0D2) || n == 0x100 || n == 0x101 || (0x108 ≤ n && n ≤ 0x10C) || (0x140 ≤ n && n ≤ 0x155)
    || n == 0x160

/-- What a word reads, writes and implies. -/
structure Uses where
  xr : List Nat := []
  xw : List Nat := []
  vr : List Nat := []
  vw : List Nat := []
  /-- e registers written. -/
  ew : List Nat := []
  handles : List Nat := []
  barrier : Option Nat := none
  sem : Option Nat := none
  torus : Bool := false
  /-- Requires S (07 R174). -/
  priv : Bool := false
  /-- A matrix-unit instruction, for the MXOWN slot alone (11 R260). -/
  mx : Bool := false
  /-- Names a tile, the A latch, the B latch. -/
  tile : Option Nat := none
  /-- Writes the tile it names. -/
  tileW : Bool := false
  /-- Is no instruction when its guard is true: a CSR number that nothing assigns (07 R175, 18 R387). -/
  unassigned : Bool := false
  latchA : Bool := false
  latchB : Bool := false
  /-- The scope at which every earlier access must be complete before the instruction goes on (05 R125). -/
  drain : Option Scope := none
  /-- Makes an access of its own, so that it waits for an earlier acquire load to bind (05 R126). -/
  mem : Bool := false
  /-- Could park a task thread (17 R366). -/
  parks : Bool := false
  deriving DecidableEq, Repr

/-- Register numbers from `first`, `n` of them. -/
def span (first n : Nat) : List Nat := (List.range n).map (first + ·)

/-- d ← a op b. -/
def usesRR (d a b : Reg) : Uses := { xr := [a.val, b.val], xw := [d.val] }

/-- d ← op a. -/
def usesR (d a : Reg) : Uses := { xr := [a.val], xw := [d.val] }

/-- vd ← va op vb. -/
def usesVV (d a b : Reg) : Uses := { vr := [a.val, b.val], vw := [d.val] }

/-- vd ← op va. -/
def usesV1 (d a : Reg) : Uses := { vr := [a.val], vw := [d.val] }

/-- The release part of an atomic's ordering (05 R128). -/
def relScope (o : AOrd) (sc : Scope) : Option Scope :=
  match o with
  | .rel | .ar => some sc
  | _ => none

/-- The scopes atomics name, among all scopes. -/
def scopeOf : AScope → Scope
  | .k => .k
  | .d => .d
  | .p => .p
  | .s => .s

/-- An atomic xd, [xa], xb (09 R225). -/
def usesAtomic (o : AOrd) (sc : AScope) (d a b : Reg) : Uses :=
  { xr := [a.val, b.val], xw := [d.val], drain := relScope o (scopeOf sc), mem := true }

/-- The scope that covers a thread's core and an endpoint of its own node, or the system for another node
(05 R117, R124; 12 R300, R305). -/
def coverScope (node core dest : Nat) : Scope :=
  let loc := bitsOf dest 14 0
  let die := dieOfCore core
  if bitsOf dest 31 15 ≠ node then .s
  else if loc < 6144 then
    if loc = core then .c
    else if clusterOfCore loc = clusterOfCore core then .k
    else if dieOfCore loc = die then .d else .p
  else if loc < 6150 then (if loc - 6144 = die then .d else .p)
  else if 8192 ≤ loc ∧ loc < 8192 + 384 then
    if loc - 8192 = clusterOfCore core then .k else if dieOfCluster (loc - 8192) = die then .d else .p
  else if 8704 ≤ loc ∧ loc < 8704 + 384 then
    if loc - 8704 = clusterOfCore core then .k else if dieOfCluster (loc - 8704) = die then .d else .p
  else if 9216 ≤ loc ∧ loc < 9222 then (if loc - 9216 = die then .d else .p)
  else if 9232 ≤ loc ∧ loc < 9244 then (if (loc - 9232) / 2 = die then .d else .p)
  else .p

/-- The scale registers a matrix pair names from vs (11 R265). -/
def scaleRegs (pair vs : Nat) : List Nat := span vs (scaleSpan pair)

/-- The inline sentinel of 12 R287 as a return-store entry. -/
def isSentinel (w : Word) : Bool := w == 1

/-- Whether the return store holds the sentinel of an inline SPAWN (12 R298). -/
def Thread.holdsSentinel (t : Thread) : Bool := t.rs.toList.any isSentinel

/-- Whether a pop of the return store reads the spill area (08 R205). -/
def Thread.refills (t : Thread) : Bool := !t.rs[0].getLsbD 0 && t.spilld != 0

/-- Registers and resources of every instruction word; `node` and `core` place the issuer. An operation of the machine
names none. A CSRR of a ring pointer names no ring handle, and an inline SPAWN's writes of x7 and x8 are not held to XCOUNT
(log entry 92: DEDUCED, unsafe). -/
def usesOf (i : Instr) (node core : Nat) (t : Thread) : Uses :=
  match i with
  | .add _ d a b | .sub _ d a b | .and _ d a b | .or _ d a b | .xor _ d a b | .andn _ d a b | .sll _ d a b
  | .srl _ d a b | .sra _ d a b | .rol _ d a b | .min _ d a b | .max _ d a b | .minu _ d a b | .maxu _ d a b
  | .mul _ d a b | .mulh _ d a b | .mulhu _ d a b | .div _ d a b | .divu _ d a b | .rem _ d a b
  | .remu _ d a b => usesRR d a b
  | .clz _ d a | .ctz _ d a | .popc _ d a => usesR d a
  | .adx _ _ d a b => usesRR d a b
  | .cmp _ _ _ a b => { xr := [a.val, b.val] }
  | .cmpiSigned _ _ _ a _ | .cmpiUnsigned _ _ _ a _ => { xr := [a.val] }
  | .madd _ _ d a b | .msub _ _ d a b | .bfx _ _ d a b => usesRR d a b
  | .bfi _ _ d a b => { xr := [d.val, a.val, b.val], xw := [d.val] }
  | .addi _ d a _ | .andi _ d a _ | .ori _ d a _ | .xori _ d a _ => usesR d a
  | .slli _ d a _ | .srli _ d a _ | .srai _ d a _ => usesR d a
  | .li _ d _ => { xw := [d.val] }
  | .lsh _ d _ => { xr := [d.val], xw := [d.val] }
  | .move _ ed a => { xr := [a.val], ew := [ed.val] }
  | .movx _ d _ => { xw := [d.val] }
  | .sel _ _ d a b => usesRR d a b
  | .br _ _ => {}
  | .call _ _ => { mem := t.rs[7].getLsbD 0 }
  | .jr _ a => { xr := [a.val] }
  | .callr _ a => { xr := [a.val], mem := t.rs[7].getLsbD 0 }
  | .ret _ => { mem := t.refills }
  | .loop _ a _ => { xr := [a.val] }
  | .loopi _ _ _ => {}
  | .pand .. | .por .. | .pxor .. | .pandn .. | .porn .. => {}
  | .pget _ d => { xw := [d.val] }
  | .pset _ a => { xr := [a.val] }
  | .ld _ _ _ d a _ => { usesR d a with mem := true }
  | .ldAcq _ _ _ _ d a _ => { usesR d a with mem := true }
  | .ldCon _ _ _ d a _ => { usesR d a with mem := true }
  | .st _ _ _ src a _ => { xr := [a.val, src.val], mem := true }
  | .stRel _ sc _ _ src a _ => { xr := [a.val, src.val], mem := true, drain := some sc }
  | .aadd _ o sc _ d a b | .amin _ o sc _ d a b | .amax _ o sc _ d a b | .aand _ o sc _ d a b | .aor _ o sc _ d a b
  | .axor _ o sc _ d a b | .aswap _ o sc _ d a b | .acas _ o sc _ d a b => usesAtomic o sc d a b
  | .acasq _ o sc d a b =>
    { xr := [a.val, b.val, b.val + 1], xw := [d.val, d.val + 1], drain := relScope o (scopeOf sc), mem := true }
  | .fence _ sc => { drain := some sc }
  | .sealR _ a | .unsealR _ a => { xr := [a.val], drain := some .p }
  | .waitv _ a b => { xr := [a.val, b.val], mem := true, parks := true }
  | .semp _ k a => { xr := [a.val], sem := some k.val, mem := true }
  | .semv _ k a => { xr := [a.val], sem := some k.val, drain := some .c }
  | .barw _ ch d a b => { xr := [a.val, b.val], xw := [d.val], barrier := some ch.val, drain := some .d }
  | .rwait _ _ h _ => { handles := [h.val], parks := true }
  | .radv _ _ h _ => { handles := [h.val], drain := some .k }
  | .cwb _ a | .cinv _ a | .iinv _ a => { xr := [a.val] }
  | .ifb _ => {}
  | .ldr _ d h b => { usesR d b with handles := [h.val], mem := true }
  | .str _ src h b => { xr := [src.val, b.val], handles := [h.val], mem := true }
  | .ctset _ _ a => { xr := [a.val] }
  | .ctclr _ d _ => { xw := [d.val] }
  | .vadd _ _ d a b | .vsub _ _ d a b | .vmul _ _ d a b | .vmin _ _ d a b | .vmax _ _ d a b | .vminu _ _ d a b
  | .vmaxu _ _ d a b | .vand _ _ d a b | .vor _ _ d a b | .vxor _ _ d a b | .vsll _ _ d a b | .vsrl _ _ d a b
  | .vsra _ _ d a b | .vadds _ _ d a b | .vsubs _ _ d a b => usesVV d a b
  | .vfadd _ _ d a b | .vfsub _ _ d a b | .vfmul _ _ d a b | .vfdiv _ _ d a b | .vfmin _ _ d a b
  | .vfmax _ _ d a b => usesVV d a b
  | .vfsqrt _ _ d a | .vfabs _ _ d a | .vfneg _ _ d a => usesV1 d a
  | .vfma _ _ d a b | .vfms _ _ d a b | .vfnma _ _ d a b | .vfnms _ _ d a b =>
    { vr := [d.val, a.val, b.val], vw := [d.val] }
  | .vcvt _ _ src dst d a =>
    { vr := span a.val (cvtSrcSpan src.val dst.val), vw := span d.val (cvtDstSpan src.val dst.val),
      ew := if cvtClass src.val dst.val = some .narrowFloat then [7] else [] }
  | .vcmp _ _ _ _ _ a b => { vr := [a.val, b.val] }
  | .vperm _ d a b => usesVV d a b
  | .vbcast _ _ d a => { xr := [a.val], vw := [d.val] }
  | .vext _ _ d a b => { xr := [b.val], xw := [d.val], vr := [a.val] }
  | .vins _ _ d a b => { xr := [a.val, b.val], vr := [d.val], vw := [d.val] }
  | .vredSum _ _ d a | .vredMin _ _ d a | .vredMax _ _ d a => usesV1 d a
  | .vld _ d a _ => { xr := [a.val], vw := [d.val], mem := true }
  | .vst _ src a _ => { xr := [a.val], vr := [src.val], mem := true }
  | .vldr _ d h _ _ _ => { vw := [d.val], handles := [h.val], mem := true }
  | .vstr _ src h _ _ _ => { vr := [src.val], handles := [h.val], mem := true }
  | .vmsum _ d a b => { xr := [b.val], vr := [d.val, a.val], vw := [d.val] }
  | .vrscl _ d a b => { xr := [b.val], vr := [a.val], vw := [d.val] }
  | .mm _ pair z _ la a b vs =>
    { xr := (if la then [] else [a.val]) ++ (if 15 ≤ pair.val then [b.val] else []), vr := scaleRegs pair.val vs.val,
      mx := true, tile := some z.val, tileW := true, latchA := la, latchB := true, mem := true }
  | .mmr _ pair z _ b vs =>
    { xr := if 15 ≤ pair.val then [b.val] else [], vr := scaleRegs pair.val vs.val, mx := true, tile := some z.val, tileW := true,
      latchA := true, latchB := true, torus := true, mem := true }
  | .latchA _ a => { xr := [a.val], latchA := true, mem := true }
  | .latchB _ a => { xr := [a.val], latchB := true, mem := true }
  | .zld _ z a _ => { xr := [a.val], mx := true, tile := some z.val, tileW := true, mem := true }
  | .zst _ z a _ => { xr := [a.val], mx := true, tile := some z.val, mem := true }
  | .zclr _ z => { mx := true, tile := some z.val, tileW := true }
  | .spawn _ _ _ _ _ d a b => { xr := [a.val, b.val, 1, 2, 3, 4, 5, 6], xw := [d.val], drain := some .d }
  | .touch _ d a => { usesR d a with parks := true }
  | .touchQ _ d a => { xr := [a.val], xw := [d.val, d.val + 1], parks := true }
  | .resolve _ d a b | .poison _ d a b => { usesRR d a b with drain := some .s }
  | .fcan _ d a => usesR d a
  | .frel _ a => { xr := [a.val] }
  | .ftest _ _ a => { xr := [a.val] }
  | .fdec _ a => { xr := [a.val], drain := some .s }
  | .glaunch _ d a b => { xr := [a.val, b.val, 1, 2, 3, 4, 5, 6], xw := [d.val], drain := some .p }
  | .yield _ => { drain := if t.kind = .task then some .k else none, parks := true }
  | .texit _ => { drain := if t.holdsSentinel then none else some .s }
  | .send _ d a b =>
    let m := t.getX a
    { xr := [a.val, b.val] ++ span 1 (wbits m 35 32), xw := [d.val],
      drain := some (coverScope node core (wbits m 31 0)) }
  | .sendc _ d a =>
    let m := t.getX a
    { xr := [a.val] ++ span 1 (wbits m 35 32), xw := [d.val],
      drain := some (coverScope node core (wbits m 31 0)) }
  | .eng _ d a =>
    { usesR d a with drain := some (coverScope node core (wbits (t.getX a) 31 0)) }
  | .rld _ _ d a => { usesR d a with mem := true, parks := true }
  | .rldF _ _ d a => { usesR d a with mem := true }
  | .rst _ _ a b => { xr := [a.val, b.val], mem := true, parks := true }
  | .trap .. => {}
  | .ebreak _ => {}
  | .eret _ => { priv := true, drain := some .p }
  | .csrr _ d hi lo => { xw := [d.val], unassigned := !csrAssigned (tenBits hi lo) }
  | .csrw _ src hi lo => { xr := [src.val], unassigned := !csrAssigned (tenBits hi lo) }
  | .sleep _ => {}
  | .cMov d a => { xr := [0, a.val], xw := [d.val] }
  | .cAdd d a | .cSub d a | .cAnd d a | .cOr d a | .cXor d a => { xr := [d.val, a.val], xw := [d.val] }
  | .cAddi d _ | .cSlli d _ | .cSrli d _ => { xr := [d.val], xw := [d.val] }
  | .cLi d _ => { xw := [d.val] }
  | .cLd d a => { usesR d a with mem := true }
  | .cSt src a => { xr := [a.val, src.val], mem := true }
  | .cBr _ => {}
  | .cRet => { mem := t.refills }
  | .cTouch d a => { usesR d a with parks := true }
  | _ => {}

end Sys2Proof.Machine
end

