-- ==== Sys2Proof/Machine/Xlate.lean ====
section
/-!
DEFINITION. The address map (spec/04 R84, R87), stage 1 and stage 2 translation (R105 to R109), the reasons of refusal
(spec/20 R424), and the PLB with its refill (spec/04 R91 to R93).
-/

namespace Sys2Proof.Machine

/-! ## The address map -/

/-- What an address names (04 R84). -/
inductive Named where
  | fabric (node off : Nat)
  | translated
  | tile (cl off : Nat)
  | window (off : Nat)
  | nothing
  deriving DecidableEq, Repr

/-- First address of the tile-store windows (04 R84). -/
def tileBase : Nat := 0x00FFFE0000000000

/-- First address of the private window (04 R84). -/
def windowBase : Nat := 0x00FFFF0000000000

/-- The first row of R84 that matches an address. -/
def nameOf (va : Nat) : Named :=
  if 2 ^ 63 ≤ va then .fabric (bitsOf va 62 46) (bitsOf va 45 0)
  else if va < tileBase then .translated
  else if va < tileBase + 384 * 0x00200000 then .tile ((va - tileBase) / 0x00200000) ((va - tileBase) % 0x00200000)
  else if windowBase ≤ va ∧ va ≤ windowBase + 0x01005FFF then .window (va - windowBase)
  else .nothing

/-- The rows of the private window (04 R87). -/
inductive WindowRow where
  | cls | inj | rx | sem | latchA | latchB | qstat
  deriving DecidableEq, Repr

/-- The row an offset of `n` bytes lies in, for a CLS share of `share` banks (04 R87, R95). -/
def windowRow (share off n : Nat) : Option WindowRow :=
  if off + n ≤ share * 0x10000 then some .cls
  else if 0x01000000 ≤ off ∧ off + n ≤ 0x01000400 then some .inj
  else if 0x01001000 ≤ off ∧ off + n ≤ 0x01001800 then some .rx
  else if 0x01002000 ≤ off ∧ off + n ≤ 0x01002020 then some .sem
  else if 0x01003000 ≤ off ∧ off + n ≤ 0x01003800 then some .latchA
  else if 0x01004000 ≤ off ∧ off + n ≤ 0x01004800 then some .latchB
  else if 0x01005000 ≤ off ∧ off + n ≤ 0x01005008 then some .qstat
  else none

/-- Whether an address lies in the CLS range of the private window, shared or not (07 R173)
(log entry 54: DEDUCED, safe). -/
def inClsRange (va : Nat) : Bool := decide (windowBase ≤ va) && decide (va < windowBase + 0x40000)

/-! ## Refusals -/

/-- A refusal's place, stage-1 level and reason (20 R424). -/
structure Refused where
  place : Nat
  level : Nat
  reason : Nat
  deriving DecidableEq, Repr

/-- The cause a refusal's place decides (20 R424). -/
def Refused.cause (r : Refused) : Cause :=
  if r.place = 3 then .page else if 4 ≤ r.place then .stage2 else .prot

/-- The descriptor bits WHERE, LEVEL and REASON of a refusal (20 R423). -/
def Refused.bits (r : Refused) : Nat := r.place * 2 ^ 26 + r.level * 2 ^ 22 + r.reason * 2 ^ 14

/-- A refusal outside stage 1 and its tables: LEVEL is 0xF (20 R423). -/
def refuse (place reason : Nat) : Refused := ⟨place, 0xF, reason⟩

/-! ## Ramzu's log and the count of stage-2 refusals (20 R429) -/

/-- An event in Ramzu's log (21 R446, 22 R465): the log's own layout is not stated (log entry 29: DESIGN
CHOICE, unsafe). -/
def State.logWord (s : State) (w : Nat) : State :=
  { s with pkg := { s.pkg with log := s.pkg.log ++ [BitVec.ofNat 64 w] } }

/-- The word of Ramzu's log for a refusal at a granule that has been retired (20 R429; log entry 29: DESIGN CHOICE, unsafe). -/
def retiredWord (p va : Nat) : Nat := 0xF * 2 ^ 60 + p * 2 ^ 48 + va % 2 ^ 56 / 4096

/-- A refusal of an access to an address by stage 2: S2REF counts it, and one at a retired granule is reported to Ramzu (20
R429). -/
def State.s2refusal (s : State) (p va : Nat) (r : Refused) : State :=
  if r.cause = .stage2 then
    let s := s.count p ctrS2ref
    if r.place = 4 ∧ r.reason = 3 then s.logWord (retiredWord p va) else s
  else s

/-! ## Stage 2 and the host (04 R108, R109) -/

/-- The place of a partition-physical HBM address, or the refusal of 20 R424, WHERE 4. -/
def Part.stage2Place (k : Part) (ppa : Nat) : Except Refused Nat :=
  if k.memSize ≤ ppa then .error (refuse 4 1)
  else
    let g := ppa / 0x10000
    if k.reserve.contains g then .error (refuse 4 2)
    else if k.s2refused.contains g then .error (refuse 4 3)
    else
      match k.stage2[g]? with
      | some base => .ok (base + ppa % 0x10000)
      | none => .error (refuse 4 1)

/-- The place of a host address, or the refusal of 20 R424, WHERE 5. -/
def Part.hostAccess (k : Part) (p iova : Nat) (write : Bool) : Except Refused Nat :=
  if k.tdisp = .error then .error (refuse 5 3)
  else
    match k.iommu.find? fun e => e.1 == iova / 4096 with
    | none => .error (refuse 5 1)
    | some e => if write && !e.2 then .error (refuse 5 2) else .ok (hostPlace p iova)

/-- The place of any partition-physical address (04 R108). -/
def Part.physical (k : Part) (p ppa : Nat) (write : Bool) : Except Refused Nat :=
  if 2 ^ 47 ≤ ppa then k.hostAccess p (ppa % 2 ^ 47) write else k.stage2Place ppa

/-! ## Sealed ranges (09 R229) -/

/-- Whether a range of a partition is sealed at an address (09 R229). -/
def Part.sealedAt (k : Part) (va : Nat) : Bool := k.seals.any fun x => decide (x.1 ≤ va) && decide (va < x.1 + 2 ^ x.2)

/-! ## Stage 1 (04 R106, R107) -/

/-- Reserved bits of a stage-1 entry; C64 is one of them above level 4 (04 R106). -/
def pteReserved (e level : Nat) : Bool :=
  bitsOf e 63 61 != 0 || bitsOf e 58 48 != 0 || bitsOf e 11 3 != 0 || (level < 4 && bitsOf e 59 59 != 0)

/-- The index bits of a virtual address at a level (04 R106). -/
def pteIndex (va level : Nat) : Nat :=
  if level = 0 then bitsOf va 55 48 else bitsOf va (47 - 9 * (level - 1)) (39 - 9 * (level - 1))

/-- The page size of a leaf at a level (04 R106). -/
def leafSize (level : Nat) : Nat := if level = 2 then 2 ^ 30 else if level = 3 then 2 ^ 21 else 2 ^ 12

/-- A translated page: its base address, size and place, whether it may be written, which its entry's W bit and for host memory
the IOMMU give, the entry's ATOM bit, and the level of the leaf. -/
structure Page where
  va : Nat
  size : Nat
  pa : Nat
  w : Bool
  atom : Bool
  level : Nat
  deriving DecidableEq, Repr

/-- Bytes that one entry of a level maps (04 R106). -/
def pteSpan (level : Nat) : Nat := 2 ^ (48 - 9 * level)

/-- The entry that the walkers' caches hold for an address at a level, of the partition's own generation (04 R103). -/
def State.walkCached (s : State) (p va level : Nat) : Option Nat :=
  (s.pkg.walkers.find? fun e => e.part == p && e.pgen == (s.part p).pgen && e.level == level
    && e.base == va / pteSpan level * pteSpan level).map (·.entry)

/-- The stage-1 entry of an address at a level whose table is at a partition-physical address: from the walkers' caches,
else from the table, whose own address stage 2 or the host may refuse (04 R103, R105; 20 R424). -/
def pteAt (s : State) (p va level table : Nat) : Except Refused Nat :=
  match s.walkCached p va level with
  | some e => .ok e
  | none =>
    match (s.part p).physical p (table + 8 * pteIndex va level) false with
    | .error r => .error (if r.place = 5 then r else ⟨4, level, 4⟩)
    | .ok at_ => .ok (leNat (s.loadHbm p at_ 8))

/-- Walk the levels from `level`, for `fuel` of them: the table's partition-physical address is `table` (04 R106). The
order of the checks on one entry is V, reserved bits, LEAF, alignment of OA, then the page's own stage 2
(log entry 14: DEDUCED, unsafe). -/
def walkFrom (s : State) (p va write : Nat) : Nat → Nat → Nat → Except Refused Page
  | 0, _, _ => .error ⟨3, 4, 3⟩
  | fuel + 1, level, table =>
    let k := s.part p
    match pteAt s p va level table with
    | .error r => .error r
    | .ok e =>
      let oa := bitsOf e 47 12 * 4096
      let leaf := bitsOf e 2 2 == 1
      if bitsOf e 0 0 = 0 then .error ⟨3, level, 1⟩
      else if pteReserved e level && !(level = 4 && !leaf) then .error ⟨3, level, 4⟩
      else if (leaf && level < 2) || (!leaf && level = 4) then .error ⟨3, level, 3⟩
      else if leaf then
        let size := leafSize level
        if oa % size ≠ 0 then .error ⟨3, level, 6⟩
        else
          let line := va / 64 * 64
          match k.physical p (oa + line % size) (write = 1) with
          | .error r => .error r
          | .ok pa =>
            .ok ⟨va / 4096 * 4096, 4096, pa - line % 4096,
              bitsOf e 1 1 == 1 && (k.physical p (oa + line % size) true).toOption.isSome, bitsOf e 60 60 == 1, level⟩
      else walkFrom s p va write fuel (level + 1) oa

/-- The entries that a walk which nothing refuses reads, level by level. -/
def walkPath (s : State) (p va : Nat) : Nat → Nat → Nat → List WalkEntry
  | 0, _, _ => []
  | fuel + 1, level, table =>
    match pteAt s p va level table with
    | .error _ => []
    | .ok e =>
      ⟨p, (s.part p).pgen, level, va / pteSpan level * pteSpan level, e⟩
        :: (if bitsOf e 2 2 = 1 then [] else walkPath s p va fuel (level + 1) (bitsOf e 47 12 * 4096))

/-- The translation of a virtual address of a partition: stage 1 from S1ROOT, then stage 2 or the host. -/
def walk (s : State) (p va : Nat) (write : Bool) : Except Refused Page :=
  walkFrom s p va (if write then 1 else 0) 5 0 (s.part p).s1root

/-- The walkers' caches keep the entries of a walk that was not refused (04 R103; 20 R425). -/
def State.fillWalk (s : State) (p va : Nat) : State :=
  let new := walkPath s p va 5 0 (s.part p).s1root
  { s with pkg := { s.pkg with walkers := new.filter (fun e => !s.pkg.walkers.contains e) ++ s.pkg.walkers } }

/-- The walkers' caches drop a partition's entries that meet a range of addresses (04 R103, R111). -/
def State.dropWalk (s : State) (p lo hi : Nat) : State :=
  { s with pkg := { s.pkg with
    walkers := s.pkg.walkers.filter fun e => !(e.part == p && decide (e.base < hi) && decide (lo < e.base + pteSpan e.level)) } }

/-! ## Slices (04 R101, R102, R104, R105) -/

/-- The memory groups a partition holds on a die. -/
def Part.groupsOn (k : Part) (die : Nat) : Nat := (k.granules.filter fun g => g / 4 == die).length

/-- The ordinal of a line's lookup slice on a die: h mod 4m (04 R101). -/
def Part.sliceOf (k : Part) (die va : Nat) : Nat :=
  let h := (bitsOf va 13 6 ^^^ bitsOf va 21 14) ^^^ bitsOf va 29 22
  let m := k.groupsOn die
  if m = 0 then 0 else h % (4 * m)

/-- The slice translation cache entry that serves a line on a die (04 R105). -/
def Part.cached (k : Part) (die va : Nat) : Option Xlate :=
  k.xcache.find? fun e => e.die == die && e.slice == k.sliceOf die va && decide (e.page ≤ va)
    && decide (va < e.page + e.size)

/-- The page of a line as a slice sees it: its translation cache, else the walk (04 R105). -/
def translate (s : State) (p die va : Nat) (write : Bool) : Except Refused Page :=
  match (s.part p).cached die va with
  | some e =>
    if write && !e.w then walk s p va true
    else .ok ⟨e.page, e.size, e.pa, e.w, e.atom, e.level⟩
  | none => walk s p va write

/-- A walk's result for one access: refused when it writes a page with W = 0 or when the page's ATOM bit differs from the
covering region's (20 R424, reasons 0x02 and 0x05). -/
def Page.allows (g : Page) (write atom : Bool) : Except Refused Page :=
  if write && !g.w then .error ⟨3, g.level, 2⟩ else if g.atom != atom then .error ⟨3, g.level, 5⟩ else .ok g

/-- The place of an address within its page. -/
def Page.place (g : Page) (va : Nat) : Nat := g.pa + (va - g.va)

/-- Enter a page into a slice translation cache, and the entries of its walk into the walkers' caches (04 R103, R105). -/
def State.fillXlate (s : State) (p die va : Nat) (g : Page) : State :=
  let s := s.fillWalk p va
  let k := s.part p
  let rest := k.xcache.filter fun e => !(e.die == die && e.slice == k.sliceOf die va && e.page == g.va)
  s.setPart p { k with xcache := ⟨die, k.sliceOf die va, g.va, g.size, g.pa, g.w, g.atom, g.level⟩ :: rest }

/-! ## Lines in the L2 (04 R102, R105; 20 R425) -/

/-- The copy of a line in a die's lookup slice. -/
def Part.copyOf (k : Part) (die line : Nat) : Option CopyLine :=
  k.copies.find? fun c => c.die == die && c.line == line

/-- The place and the W bit of a line that a die's L2 holds, as its home or as a copy. -/
def Part.held (k : Part) (die line : Nat) : Option (Nat × Bool) :=
  match k.copyOf die line with
  | some c => some (c.pa, c.w)
  | none => (k.homeOf die line).map fun h => (h.pa, h.w)

/-- The page of a line that an L2 holds, which needs no translation: refused where its memory group is contained (04 R105; 21
R450). -/
def heldPage (s : State) (line pa : Nat) (w : Bool) : Except Refused Page :=
  if s.pkg.failedGroups.contains (pa / 2 ^ 35) then .error (refuse 4 3) else .ok ⟨line, 64, pa, w, false, 4⟩

/-- The page of a line as an access of a die's agent to cacheable memory finds it: a line that its L2 holds needs no
translation, unless it is written and was filled with W = 0 (04 R105, 20 R425). -/
def linePage (s : State) (p die line : Nat) (write : Bool) : Except Refused Page :=
  match (s.part p).held die line with
  | some (pa, w) =>
    if write && !w then (translate s p die line true).bind (·.allows true false) else heldPage s line pa w
  | none => (translate s p die line write).bind (·.allows write false)

/-- The page of a line as a read finds it whose region's ATOM right does not matter: a line that its die's L2 holds, else what
translation gives (04 R105). -/
def readPage (s : State) (p die line : Nat) : Except Refused Page :=
  match (s.part p).held die line with
  | some (pa, w) => heldPage s line pa w
  | none => translate s p die line false

/-- Whether a walk that no cache serves reads a table in host memory, or ends at a page there (04 R106, R108). -/
def walkMeetsHost (s : State) (p va : Nat) : Nat → Nat → Nat → Bool
  | 0, _, _ => false
  | fuel + 1, level, table =>
    ((s.walkCached p va level).isNone && decide (2 ^ 47 ≤ table))
      || (match pteAt s p va level table with
        | .error _ => false
        | .ok e =>
          bitsOf e 0 0 == 1 && (if bitsOf e 2 2 = 1 then decide (2 ^ 47 ≤ bitsOf e 47 12 * 4096)
            else walkMeetsHost s p va fuel (level + 1) (bitsOf e 47 12 * 4096)))

/-- Whether an access to an address waits for the interface of its partition to reach RUN: its page is host memory, or a table
of its walk, and no L2 holds the line (15 R344) (log entry 47: DEDUCED, safe). -/
def State.hostWaits (s : State) (p die va : Nat) : Bool :=
  let d := (s.part p).tdisp
  (d == .unlocked || d == .locked) && ((s.part p).held die (va / 64 * 64)).isNone
    && (match (s.part p).cached die va with
      | some e => decide (2 ^ 60 ≤ e.pa)
      | none => walkMeetsHost s p va 5 0 (s.part p).s1root)

/-- The line of translated memory at its home, for an agent that reads HOME (05 R120 for the control die, R134 for
fetch, 04 R93 for the PLB refill); an ATOM page has none. -/
def readLine (s : State) (p die va : Nat) : Except Refused LineData :=
  let line := va / 64 * 64
  match readPage s p die line with
  | .error r => .error r
  | .ok g =>
    let pa := g.place line
    .ok (if g.atom then ⟨s.load pa 64, s.isPoisoned pa, pa, 5⟩ else s.homeData p line pa)

/-! ## The PLB (04 R91 to R93) -/

/-- Why a word that a refill needs is not there: its translation is refused, or its granule is poisoned (04 R93), or it lies in
host memory that has to wait (15 R344). -/
inductive PlbFail where
  | refused (r : Refused)
  | poisoned (pa src : Nat)
  | waits
  deriving DecidableEq, Repr

/-- A word of translated memory at its home, as a PLB refill reads it (04 R93; 21 R441). -/
def readHomeWord (s : State) (p die va : Nat) : Except PlbFail Nat :=
  if s.hostWaits p die va then .error .waits
  else
  match readLine s p die va with
  | .error r => .error (.refused r)
  | .ok l => if l.bad then .error (.poisoned l.pa l.src) else .ok (leNat ((l.data.drop (va % 64)).take 8))

/-- A region descriptor of two words (04 R92), none when it is not valid. -/
def regionOf (w0 w1 : Nat) : Option (Nat × Nat × Rights) :=
  let log2 := bitsOf w0 11 6
  let base := bitsOf w0 55 12 * 4096
  if bitsOf w1 0 0 = 1 ∧ bitsOf w0 63 56 = 0 ∧ bitsOf w0 5 0 = 0 ∧ bitsOf w1 63 7 = 0 ∧ 12 ≤ log2 ∧ log2 ≤ 56
      ∧ base % 2 ^ log2 = 0 then
    some (base, log2,
      ⟨bitsOf w1 1 1 == 1, bitsOf w1 2 2 == 1, bitsOf w1 3 3 == 1, bitsOf w1 4 4 == 1, bitsOf w1 5 5 == 1,
        bitsOf w1 6 6 == 1⟩)
  else none

/-- The first descriptor of a list of words, two to a descriptor, that is valid and covers an address (04 R93). -/
def coveringRegion (va : Nat) : List Nat → Option (Nat × Nat × Rights)
  | w0 :: w1 :: rest =>
    match regionOf w0 w1 with
    | some (b, l, r) => if b ≤ va ∧ va < b + 2 ^ l then some (b, l, r) else coveringRegion va rest
    | none => coveringRegion va rest
  | _ => none

/-- Eight consecutive words of a region table, as the core reads them at a time (04 R93). -/
def regionBlock (s : State) (p die at_ : Nat) : Nat → Except PlbFail (List Nat)
  | 0 => .ok []
  | n + 1 =>
    match readHomeWord s p die at_ with
    | .error e => .error e
    | .ok w => (regionBlock s p die (at_ + 8) n).map (w :: ·)

/-- Scan a region table in index order, four descriptors at a time and `n` in all, for the region that covers an address:
none when no valid region covers it (04 R93)
(log entry 55: DEDUCED, unsafe). -/
def scanRegions (s : State) (p die va : Nat) : Nat → Nat → Nat → Except PlbFail (Option (Nat × Nat × Rights))
  | 0, _, _ => .ok none
  | fuel + 1, n, at_ =>
    if n = 0 then .ok none
    else
      match regionBlock s p die at_ 8 with
      | .error e => .error e
      | .ok ws =>
        match coveringRegion va (ws.take (2 * n)) with
        | some r => .ok (some r)
        | none => scanRegions s p die va fuel (n - 4) (at_ + 64)

/-- A refill that cannot be made: every refused read is WHERE 1, REASON 0x03 (04 R93, 20 R424). -/
def PlbFail.refill : PlbFail → PlbFail
  | .refused _ => .refused (refuse 1 3)
  | .poisoned pa src => .poisoned pa src
  | .waits => .waits

/-- The region a domain's descriptor and table give for an address (04 R93, 20 R424). -/
def regionFor (s : State) (p die dom va : Nat) : Except PlbFail (Option (Nat × Nat × Rights)) :=
  let at_ := (s.part p).domBase + dom * 16
  match readHomeWord s p die at_, readHomeWord s p die (at_ + 8) with
  | .ok w0, .ok w1 =>
    if bitsOf w0 63 56 ≠ 0 ∨ bitsOf w0 3 0 ≠ 0 ∨ bitsOf w1 63 11 ≠ 0 ∨ 1024 < bitsOf w1 10 0 then
      .error (.refused (refuse 1 3))
    else
      match scanRegions s p die va 257 (bitsOf w1 10 0) (bitsOf w0 55 4 * 16) with
      | .ok r => .ok r
      | .error e => .error e.refill
  | .error e, _ => .error e.refill
  | _, .error e => .error e.refill

/-- Whether an entry serves an address of a domain. -/
def PlbEntry.covers (e : PlbEntry) (p dom va : Nat) : Bool :=
  e.part == p && e.dom == dom && decide (e.base ≤ va) && decide (va < e.base + 2 ^ e.log2)

/-- The PLB with an entry most recently used, at most 64 of them: the least recently used one is replaced (04 R93). -/
def plbTouch (plb : List PlbEntry) (e : PlbEntry) : List PlbEntry := (e :: plb.filter (· != e)).take 64

/-- Look an address up in a core's PLB, refilling it on a miss (04 R93): the entry, absent when no region covers the
address, and the state with the PLB's new order. -/
def plbLookup (s : State) (c p dom va : Nat) : Except PlbFail (Option PlbEntry × State) :=
  let k := s.core c
  match k.plb.find? (·.covers p dom va) with
  | some e => .ok (some e, s.setCore c { k with plb := plbTouch k.plb e })
  | none =>
    match regionFor s p (dieOfCore c) dom va with
    | .error r => .error r
    | .ok none => .ok (none, s)
    | .ok (some (b, l, r)) =>
      let e : PlbEntry := ⟨p, dom, b, l, r, (s.part p).seals.contains (b, l)⟩
      .ok (some e, s.setCore c { k with plb := plbTouch k.plb e })

end Sys2Proof.Machine
end

