-- ==== Sys2Proof/Machine/Cut.lean ====
section
/-!
DEFINITION. Packets that leave the package (spec/15 R328 to R330, R341), the drain of a checkpoint's image by which they go
(spec/16 R356, R357, R359), the copy of a marked granule before a write to it, and the stores at a home (R356, spec/05 R119).
-/

namespace Sys2Proof.Machine

/-! ## Packets -/

/-- An endpoint ID (15 R328). -/
def endpoint (node loc : Nat) : Nat := node * 2 ^ 15 + loc

/-- NODE of an endpoint ID. -/
def endNode (e : Nat) : Nat := e / 2 ^ 15 % 2 ^ 17

/-- LOCAL of an endpoint ID. -/
def endLocal (e : Nat) : Nat := e % 2 ^ 15

/-- The STEP tag of a partition's packets: the low 16 bits of the STEPDONE of its tagging group (15 R341). -/
def State.stepTag (s : State) (p : Nat) : Nat :=
  match (s.part p).tagging with
  | none => 0
  | some va =>
    match readHomeWord s p controlDie (va + 8) with
    | .ok w => w % 65536
    | .error _ => 0

/-- The bytes of a packet's header (15 R329). -/
def packetHeader (k : Packet) : List Byte :=
  leBytes 8 (k.dest * 2 ^ 32 + k.src)
    ++ leBytes 8 (k.job * 2 ^ 48 + k.pgen * 2 ^ 44 + k.cls * 2 ^ 42 + k.prio * 2 ^ 40 + k.route * 2 ^ 32 + k.step * 2 ^ 16
      + k.ptype * 2 ^ 8)
    ++ leBytes 8 (k.len * 2 ^ 40 + k.tag) ++ leBytes 8 k.arg

/-- A packet of a partition with its header fields (15 R329). -/
def State.packet (s : State) (p ptype src dest cls prio route len tag arg : Nat) (payload : List Byte) : Packet :=
  ⟨ptype, dest, src, (s.part p).job, (s.part p).pgen, cls, prio, route, s.stepTag p, len, tag, arg, 0, payload⟩

/-- The live partition of a job on this node (04 R89). -/
def State.partOfJob (s : State) (job : Nat) : Option Nat := (s.parts.find? fun e => e.2.live && e.2.job == job).map (·.1)

/-- Whether INJ and ARR count a packet (16 R358). -/
def packetCounted (k : Packet) : Bool := decide (k.cls < 2) && decide (1 ≤ k.ptype) && decide (k.ptype ≤ 0x0A)

/-- INJ of a partition after some packets more, or fewer, injected for another node (16 R358). -/
def State.countInjected (s : State) (p n : Nat) : State :=
  let k := s.part p
  s.setPart p { k with proof := { k.proof with injected := (k.proof.injected + n) % 2 ^ 64 } }

/-- A packet on its way to another node, counted when it was injected
(log entry 7: DESIGN CHOICE, safe). -/
def State.depart (s : State) (k : Packet) : State := { s with outbox := s.outbox ++ [k] }

/-- A packet of a service on its way to another node: it is injected now (16 R358). -/
def State.emit (s : State) (k : Packet) : State :=
  match (s.partOfJob k.job).filter fun _ => packetCounted k with
  | some p => (s.countInjected p 1).depart k
  | none => s.depart k

/-! ## The drain (16 R356, R357, R359) -/

/-- The Proof engine with no CUT outstanding: its marks go, and its totals and what it holds stay (16 R354, R358, R467). -/
def Proof.disarmed (q : Proof) : Proof :=
  { q with
    armed := none, taken := false, image := [], marked := [], copied := [], order := [], log := [], logOpen := false
    drained := 0, acks := 0 }

/-- A CUT ends without committing, with a STATUS and a VALUE: its marks go, the counter stands (16 R467; 18 R397). Its held
packets are consumed next. -/
def State.stopCut (s : State) (p status value : Nat) : State :=
  let part := s.part p
  match part.proof.armed with
  | none => s
  | some n =>
    let s := s.setPart p { part with proof := part.proof.disarmed }
    match s.commands.find n with
    | some c => s.setCommand n { c with finished := some (status, BitVec.ofNat 64 value) }
    | none => s

/-- A CUT fails, which PROOFREF counts (16 R467). -/
def State.failCut (s : State) (p status value : Nat) : State :=
  if (s.part p).proof.armed.isSome then (s.stopCut p status value).count p ctrProofref else s

/-- A number rounded up. -/
def roundUp (n unit : Nat) : Nat := (n + unit - 1) / unit * unit

/-- Offset of the tag table. -/
def tagOff (n : Nat) : Nat := roundUp (0x1000 + 4 * n) 4096

/-- Offset of the records. -/
def dataOff (n nlog : Nat) : Nat := roundUp (tagOff n + 16 * (n + nlog)) 65536

/-- Records of the channel log. -/
def Proof.logRecords (q : Proof) : Nat := (q.log.length + 65535) / 65536

/-- Plaintext of record `i`: a granule, or a chunk of the log. -/
def Proof.record (q : Proof) (i : Nat) : List Byte :=
  match q.image[i]? with
  | some g => g.2
  | none => (q.log.drop (65536 * (i - q.image.length))).take 65536

/-- COUNTER of the image in hand: the tenant's current counter plus 1 (16 R359). -/
def State.imageCounter (s : State) (p : Nat) : Nat := (s.pkg.sealCounters.find (s.part p).job).getD 0 + 1

/-- The sealing key of an image (16 R359). -/
def sealKey (k : Part) (counter node : Nat) : List Byte :=
  let text := [0x44, 0x5A, 0x4B, 0x36, 0x20, 0x70, 0x72, 0x6F, 0x6F, 0x66, 0x20, 0x73, 0x65, 0x61, 0x6C].map (BitVec.ofNat 8 ·)
  Config.hkdf k.measurement (k.secret.getD []) (text ++ leBytes 8 counter ++ leBytes 4 node)

/-- The nonce of record `i`: four bytes of zero, and `i` as 8 bytes little-endian (16 R359; log entry 11: DESIGN CHOICE, safe). -/
def recordNonce (i : Nat) : List Byte := leBytes 4 0 ++ leBytes 8 i

/-- Record `i` sealed: its ciphertext and its tag. -/
def State.sealedRecord (s : State) (p i : Nat) : List Byte × List Byte :=
  let k := s.part p
  let out := Config.gcmSeal (sealKey k (s.imageCounter p) s.pkg.node) (recordNonce i) [] (k.proof.record i)
  let n := (k.proof.record i).length
  (out.take n, (out.drop n).take 16)

/-- A list of bytes filled with zeros up to a length. -/
def fillTo (bs : List Byte) (n : Nat) : List Byte := bs ++ List.replicate (n - bs.length) 0

/-- The storage endpoint of an image offset (16 R357). -/
def Proof.endpointOf (q : Proof) (off : Nat) : Nat := (q.stores[off / 4096 % Nat.max 1 q.stores.length]?).getD 0

/-- Send one 4 KiB piece of an image. -/
def State.drainPacket (s : State) (p off : Nat) (bs : List Byte) : State :=
  let k := s.part p
  let q := k.proof
  let s := s.setPart p { k with proof := { q with drained := q.drained + 1, sentAt := s.now } }
  s.emit (s.packet p 0x12 (endpoint s.pkg.node 9248) (q.endpointOf off) 1 0 0 bs.length (q.serial % 2 ^ 32) (q.imgBase + off) bs)

/-- The record that the drain takes next: the lowest that has not been drained (16 R356). -/
def Proof.nextRecord (q : Proof) : Nat :=
  ((List.range (q.image.length + q.logRecords)).find? fun i => !q.order.contains i).getD 0

/-- A granule that has been drained is marked and copied no more (16 R356). -/
def Proof.granuleDrained (q : Proof) (i : Nat) : Proof :=
  match q.image[i]? with
  | some g => { q with marked := q.marked.filter (· != g.1), copied := q.copied.filter (·.1 != g.1) }
  | none => q

/-- Whether a granule of a partition that the image holds is poisoned where it stands (21 R440, R441). -/
def State.granulePoisoned (s : State) (p g : Nat) : Bool :=
  match (s.part p).stage2[g]? with
  | some pa => s.poison.any (fun a => a / 65536 == pa / 65536)
      || (s.part p).lines.any fun h => h.bad && h.pa / 65536 == pa / 65536
  | none => false

/-- Whether the engine's hart meets poison in a record that it reads: in a granule that is still in its home (21 R441). -/
def State.recordPoisoned (s : State) (p i : Nat) : Bool :=
  let q := (s.part p).proof
  match q.image[i]? with
  | some g => q.marked.contains g.1 && s.granulePoisoned p g.1
  | none => false

/-- The drain begins a record: one whose granule is poisoned ends the CUT with MCHECK (18 R397; 21 R441). -/
def State.beginRecord (s : State) (p i : Nat) : State :=
  let k := s.part p
  if s.recordPoisoned p i then s.stopCut p 7 0
  else s.setPart p { k with proof := { k.proof with order := k.proof.order ++ [i] } }

/-- The drain sends the next piece of the record that it has begun. -/
def State.drainPiece (s : State) (p : Nat) : State :=
  let k := s.part p
  let q := k.proof
  match q.order.getLast? with
  | none => s
  | some i =>
    let sub := q.drained % 16
    let bs := ((fillTo (s.sealedRecord p i).1 65536).drop (4096 * sub)).take 4096
    let q' := if sub = 15 then q.granuleDrained i else q
    (s.setPart p { k with proof := q' }).drainPacket p (dataOff q.image.length q.logRecords + 65536 * i + 4096 * sub) bs

/-- The next step on the records: another is begun, or a piece goes. -/
def State.drainRecord (s : State) (p : Nat) : State :=
  let q := (s.part p).proof
  if q.order.length * 16 ≤ q.drained then s.beginRecord p q.nextRecord else s.drainPiece p

/-- A number of steps of the drain on the records, one of them begun. -/
def State.drainPieces (s : State) (p : Nat) : Nat → State
  | 0 => s
  | n + 1 => (s.drainPiece p).drainPieces p n

/-- The drain of one granule before any other, once the record in hand has gone: where the reserve is full (16 R356; log entry
104: DEDUCED, unsafe). -/
def State.drainFirst (s : State) (p g : Nat) : State :=
  let q := (s.part p).proof
  let s := s.drainPieces p (q.order.length * 16 - q.drained)
  let s := s.beginRecord p (q.image.findIdx (·.1 == g))
  if (s.part p).proof.taken then s.drainPieces p 16 else s

/-! ## Copy-on-write (16 R356) -/

/-- The Proof engine copies a marked granule into a granule of the reserve, with the bytes that the image has of it, and clears
its mark (16 R356). -/
def State.copyTo (s : State) (p g r : Nat) : State :=
  let k := s.part p
  let q := k.proof
  let s := s.setPart p { k with proof := { q with marked := q.marked.filter (· != g), copied := q.copied ++ [(g, r)] } }
  match k.stage2[r]?, q.image.find? (·.1 == g) with
  | some at_, some x => s.store at_ x.2
  | _, _ => s

/-- The Proof engine takes a marked granule before a write to it performs: into the reserve, or to the drain when that is full
(16 R356); poison in the granule ends the CUT (21 R441). -/
def State.copyGranule (s : State) (p g : Nat) : State :=
  let k := s.part p
  if !k.proof.marked.contains g then s
  else if s.granulePoisoned p g then s.stopCut p 7 0
  else
    match k.reserveSlot with
    | some r => s.copyTo p g r
    | none => s.drainFirst p g

/-- What comes before a step that changes HOME or MEM at a place of HBM (16 R356). -/
def State.beforeWrite (s : State) (p pa : Nat) : State :=
  if (s.part p).proof.marked.isEmpty then s
  else
    match (s.part p).granuleAt pa with
    | some g => s.copyGranule p g
    | none => s

/-- Bytes stored by a partition at a place that no cache holds: an ATOM page's unit, a single place, host memory
(04 R112, 05 R118). -/
def State.storeAt (s : State) (p pa : Nat) (bs : List Byte) : State := (s.beforeWrite p pa).store pa bs

/-- Bytes stored at HOME[L] from an offset within the line; a whole line clears its poison (21 R441). -/
def State.storeHome (s : State) (p line pa off : Nat) (bs : List Byte) : State :=
  if 2 ^ 40 ≤ pa then s.storeAt p (pa + off) bs
  else
    let s := (s.beforeWrite p pa).fetchHome p line pa true
    match (s.part p).homeOf (homeDie pa) line with
    | some h =>
      (s.setPart p ((s.part p).putHome { h with
        data := patch h.data off bs, dirty := h.dirty ||| byteMask off bs.length
        bad := h.bad && decide (bs.length < 64) })).touch h.pa
    | none => s

end Sys2Proof.Machine
end

