-- ==== Sys2Proof/Machine/Access.lean ====
section
/-!
DEFINITION. The reference machine of spec/05: the steps that bind loads and perform stores and atomics, the lazy steps,
and what an acquire drops (R119 to R131).
-/

namespace Sys2Proof.Machine

/-! ## L1 lines (04 R96, R97; 05 R119, R131) -/

/-- First address of the 64-byte line or granule of an address. -/
def lineOf (va : Nat) : Nat := va / 64 * 64

/-- The core whose L1 portion holds a line for core `c`: its own, or with a fused cache the one line bits [9:6] select
(04 R97). -/
def State.l1Core (s : State) (c line : Nat) : Nat :=
  if (s.core c).fused.isSome then coreOfCluster (clusterOfCore c) (bitsOf line 9 6) else c

/-- The L1 line a core sees. -/
def State.l1Line (s : State) (c p line : Nat) : Option CacheLine :=
  (s.core (s.l1Core c line)).l1.find? fun l => l.part == p && l.line == line

/-- Every L1 line of a core that does not satisfy a test goes
(log entry 5: DESIGN CHOICE, safe). -/
def State.keepL1 (s : State) (c : Nat) (keep : CacheLine → Bool) : State :=
  let k := s.core c
  s.setCore c { k with l1 := k.l1.filter keep }

/-- The L1 portions one acquire of core `c` acts on: its own, or the sixteen of a fused cluster (04 R97). -/
def State.l1Portions (s : State) (c : Nat) : List Nat :=
  if (s.core c).fused.isSome then (List.range 16).map (coreOfCluster (clusterOfCore c)) else [c]

/-- Drop the unsealed L1 lines of a core or fused cache (05 R126, R131). -/
def State.dropUnsealed (s : State) (c : Nat) : State :=
  (s.l1Portions c).foldl (fun s c => s.keepL1 c (·.isSealed)) s

/-- The set of an L1 line among the 256 of its portion: bits [13:6], and above the bits that select the portion when the
caches are fused (04 R96, R97; log entry 85: DESIGN CHOICE, safe). -/
def l1Set (fused : Bool) (line : Nat) : Nat := if fused then bitsOf line 17 10 else bitsOf line 13 6

/-- Ways of a core's L1: four for each bank that is not CLS (04 R95, R96). -/
def Core.l1Ways (k : Core) : Nat := 4 * (5 - k.clsNow)

/-- Enter a line into the L1 of a core, replacing an older copy of it, or a line that is free to choose when its set is
full (04 R96). -/
def State.fillL1 (s : State) (c p : Nat) (l : CacheLine) : State :=
  let at_ := s.l1Core c l.line
  let fused := (s.core c).fused.isSome
  let k := s.core at_
  let rest := k.l1.filter fun x => !(x.part == p && x.line == l.line)
  let peers := rest.filter fun x => l1Set fused x.line == l1Set fused l.line
  if peers.length < k.l1Ways then s.setCore at_ { k with l1 := l :: rest }
  else
    let (w, s) := s.takeFree
    match peers[w.toNat % peers.length]? with
    | some v => s.setCore at_ { k with l1 := l :: rest.filter (· != v) }
    | none => s

/-- Update a present L1 line with stored bytes (05 R121, R122); a whole line clears its poison (21 R441). -/
def State.patchL1 (s : State) (c p va : Nat) (bs : List Byte) : State :=
  match s.l1Line c p (lineOf va) with
  | some l => s.fillL1 c p { l with data := patch l.data (va % 64) bs, bad := l.bad && decide (bs.length < 64) }
  | none => s

/-- What an acquire at a scope drops (05 R126): nothing at .t and .c. -/
def State.acquire (s : State) (c : Nat) (sc : Scope) : State :=
  match sc with
  | .t | .c => s
  | _ => s.dropUnsealed c

/-! ## Watches (09 R230) -/

/-- Enter a task into a cluster's run queue: its level, the front band or the back band (02 R49). -/
def Cluster.enqueue (k : Cluster) (task level now : Nat) (front : Bool) : Cluster :=
  { k with runq := k.runq ++ [⟨task, level, front, now, now⟩] }

/-- Wake a parked task thread of a cluster with what its wait receives (02 R49): it re-enters the run queue at the tail of
the front band of its running level. -/
def State.wakeParked (s : State) (cl task : Nat) (w : Wait) : State :=
  let k := s.cluster cl
  match k.parked.find task, k.tasks.find task with
  | some th, some tk =>
    let k := { k with
      parked := k.parked.put task { th with wait := w }
      tasks := k.tasks.put task { tk with state := .ready } }
    s.setCluster cl (k.enqueue task th.level s.now true)
  | _, _ => s

/-- Whether a wait is a SLEEP. -/
def Wait.sleeps : Wait → Bool
  | .sleep _ => true
  | _ => false

/-- A wake event of a core: its threads in SLEEP become active (03 R83, 08 R215). -/
def State.wakeCore (s : State) (c : Nat) : State :=
  (List.range 4).foldl (fun s j =>
    match s.thread (c * 4 + j) with
    | some th => if th.wait.sleeps then s.setThread (c * 4 + j) { th with wait := .woken } else s
    | none => s) s

/-- Wake a thread that waits in a slot. -/
def State.wakeSlot (s : State) (t : Nat) (w : Wait) : State :=
  match s.thread t with
  | some th => (s.setThread t { th with wait := w }).wakeCore (t / 4)
  | none => s

/-- Wake every thread, in a slot or parked, whose wait satisfies a test. -/
def State.wakeAll (s : State) (p : Wait → Bool) (w : Wait) : State :=
  let s := s.threads.foldl (fun s e => if p e.2.wait then s.wakeSlot e.1 w else s) s
  s.clusters.foldl (fun s e => e.2.parked.foldl (fun s f => if p f.2.wait then s.wakeParked e.1 f.1 w else s) s) s

/-- Whether a wait watches the granule of a place. -/
def Wait.watches (pa : Nat) : Wait → Bool
  | .watch q => q == lineOf pa
  | _ => false

/-- Any store or atomic performed at a watched place wakes the watch, also one that changes nothing (09 R230)
(log entry 80: DEDUCED, safe). -/
def State.wakeWatch (s : State) (pa : Nat) : State := s.wakeAll (Wait.watches pa) .woken

/-! ## Copies and lazy steps (05 R119, R121) -/

/-- The copies without one. -/
def Part.dropCopy (k : Part) (die line : Nat) : Part :=
  { k with copies := k.copies.filter fun c => !(c.die == die && c.line == line) }

/-- The copies with one entered or replaced. -/
def Part.putCopy (k : Part) (c : CopyLine) : Part :=
  { k.dropCopy c.die c.line with copies := c :: (k.dropCopy c.die c.line).copies }

/-- The dies that hold a copy of a line. -/
def Part.copyDies (k : Part) (line : Nat) : List Nat := (k.copies.filter (·.line == line)).map (·.die)

/-- Schedule the removal of a line's copies on some dies (05 R121). -/
def Part.scheduleRemove (k : Part) (line : Nat) (dies : List Nat) : Part :=
  { k with delayed := k.delayed ++ dies.map fun e => Lazy.remove e line }

/-- Bytes under a mask go to HOME[L], with the poison of the copy they come from (05 R121; 21 R441). -/
def State.mergeHome (s : State) (p line pa : Nat) (mask : BitVec 64) (data : List Byte) (bad : Bool) : State :=
  let s := (s.beforeWrite p pa).fetchHome p line pa true
  match (s.part p).homeOf (homeDie pa) line with
  | some h =>
    (s.setPart p ((s.part p).putHome { h with
      data := mergeMask mask 0 data h.data, dirty := h.dirty ||| mask
      bad := bad || (h.bad && mask != BitVec.allOnes 64) })).touch h.pa
  | none => s.writeBackAt ⟨line, pa, data, mask, true, bad⟩ pa

/-- forward(e, L) (05 R121); to a contained memory group nothing is forwarded (21 R450). -/
def State.forward (s : State) (p e line : Nat) : State :=
  let k := s.part p
  match k.copyOf e line with
  | none => s
  | some c =>
    if c.dirty = 0 ∨ s.pkg.failedGroups.contains (c.pa / 2 ^ 35) then s
    else
      let k := (k.putCopy { c with dirty := 0 }).scheduleRemove line ((k.copyDies line).filter (· != e))
      ((s.setPart p k).mergeHome p line c.pa c.dirty c.data c.bad).wakeWatch c.pa

/-- remove(e, L) (05 R121). -/
def State.remove (s : State) (p e line : Nat) : State :=
  let s := s.forward p e line
  if ((s.part p).copyOf e line).any (·.dirty != 0) then s else s.setPart p ((s.part p).dropCopy e line)

/-- Take forward(d, L) and then remove(e, L) for every other die with a copy (05 R125 at .p and .s, 09 R237); for a G = 0
atomic the die's own copy goes too. -/
def State.publish (s : State) (p d line : Nat) (atomic : Bool) : State :=
  let s := s.forward p d line
  ((s.part p).copyDies line).foldl (fun s e => if e = d && !atomic then s else s.remove p e line) s

/-- The contents of a line that a die's agents see, its place and its W bit known: its COPY, or one that the die fetches when
the line is homed elsewhere (05 R120). -/
def State.sliceAt (s : State) (p d line pa : Nat) (w isSealed : Bool) : State × LineData :=
  match (s.part p).copyOf d line with
  | some c => (s, ⟨c.data, c.bad, c.pa, 4⟩)
  | none =>
    let home := s.homeData p line pa
    let s := s.fetchHome p line pa w
    if homeDie pa = d ∨ d = controlDie then (s, home)
    else (s.setPart p ((s.part p).putCopy ⟨d, line, home.pa, home.data, 0, w, isSealed, home.bad⟩), home)

/-- slice(d, L) (05 R120): the contents a die's agents see, fetching a copy when the line is homed elsewhere; `isSealed` is
the mark of what fills it (04 R114). -/
def State.slice (s : State) (p d line : Nat) (isSealed : Bool) : Except Refused (State × LineData) :=
  (linePage s p d line false).map fun g => s.sliceAt p d line (g.place line) g.w isSealed

/-- perform0 (05 R121) of bytes at an address by an agent of die d, at the place of its line. -/
def State.perform0At (s : State) (p d va pa : Nat) (bs : List Byte) : State :=
  let line := lineOf va
  if homeDie pa = d ∨ d = controlDie then
    let s := s.storeHome p line pa (va % 64) bs
    (s.setPart p ((s.part p).scheduleRemove line ((s.part p).copyDies line))).wakeWatch pa
  else
    let (s, old) := s.sliceAt p d line pa true false
    let k := s.part p
    let dirty := ((k.copyOf d line).map (·.dirty)).getD 0 ||| byteMask (va % 64) bs.length
    let k := k.putCopy ⟨d, line, pa, patch old.data (va % 64) bs, dirty, true, false, old.bad && decide (bs.length < 64)⟩
    s.setPart p { k with delayed := k.delayed ++ [.forward d line] }

/-- perform0 (05 R121) of bytes at an address by an agent of die d; `c` is the agent's core when it has an L1. -/
def State.perform0 (s : State) (p d va : Nat) (c : Option Nat) (bs : List Byte) : Except Refused State :=
  (linePage s p d (lineOf va) true).map fun g =>
    let s := s.perform0At p d va (g.place (lineOf va)) bs
    match c with
    | some c => s.patchL1 c p va bs
    | none => s

/-- Whether a line lies on an ATOM page, for a service whose access no region covers (04 R112). -/
def atomPage (s : State) (p d line : Nat) : Bool :=
  ((s.part p).held d line).isNone && ((translate s p d line false).toOption.map (·.atom)).getD false

/-- A plain store of a service of the hardware inside one line: on an ATOM page at its unit, elsewhere perform0 (04 R112; 05
R121). A sealed range takes none (20 R435). -/
def State.serviceStore (s : State) (p d va : Nat) (bs : List Byte) : Except Refused State :=
  if (s.part p).sealedAt va then .error (refuse 1 2)
  else if atomPage s p d (lineOf va) then
    match (translate s p d (lineOf va) true).bind (·.allows true true) with
    | .ok g => .ok ((s.storeAt p (g.place va) bs).wakeWatch (g.place va))
    | .error r => .error r
  else s.perform0 p d va none bs

/-- A plain load of a service of the hardware inside one line, of at most 16 bytes on an ATOM page and up to the end of the line
elsewhere: the bytes, and whether they are poisoned (04 R112; 05 R118, R120). -/
def State.serviceLoad (s : State) (p d va : Nat) : Except Refused (State × List Byte × Bool) :=
  if atomPage s p d (lineOf va) then
    (translate s p d (lineOf va) false).map fun g => (s, s.load (g.place va) 16, s.isPoisoned (g.place va))
  else
    (s.slice p d (lineOf va) false).map fun x => (x.1, x.2.data.drop (va % 64), x.2.bad)

/-- A line that a service of the hardware loads, in the parts that its page gives, `fuel` of them at most: the bytes, and the place
of a part that is poisoned (05 R118; log entry 107: DEDUCED, unsafe). -/
def State.serviceLine (s : State) (p d va : Nat) : Nat → Except Refused (State × List Byte × Bool)
  | 0 => .ok (s, [], false)
  | fuel + 1 =>
    match s.serviceLoad p d va with
    | .error r => .error r
    | .ok (s, bs, bad) =>
      if va % 64 + bs.length < 64 then
        (State.serviceLine s p d (va + bs.length) fuel).map fun x => (x.1, bs ++ x.2.1, bad || x.2.2)
      else .ok (s, bs, bad)

/-- The first part of perform_home (05 R122) at an address by an agent of die d: its place, once every COPY that the step
removes has gone. -/
def State.homeReady (s : State) (p d va : Nat) (home : Bool) : Except Refused (State × Nat) :=
  match linePage s p d (lineOf va) true with
  | .error r => .error r
  | .ok g =>
    .ok (((s.part p).copyDies (lineOf va)).foldl (fun s e => if home || e == d then s.remove p e (lineOf va) else s) s,
      g.place va)

/-- The rest of perform_home (05 R122) at a place: the operation maps the old bytes to the bytes to write, none when it
writes nothing; the answer holds the old bytes. -/
def State.homeStep (s : State) (p va pa size : Nat) (home : Bool) (f : List Byte → Option (List Byte)) :
    State × List Byte :=
  let line := lineOf va
  let s := s.fetchHome p line (lineOf pa) true
  let old := s.homeBytes p va pa size
  let s := (match f old with
    | some bs => s.storeHome p line (lineOf pa) (va % 64) bs
    | none => s).wakeWatch pa
  let k := s.part p
  (if home then s else s.setPart p (k.scheduleRemove line (k.copyDies line)), old)

/-- perform_home (05 R122) of a store at an address by an agent of die d. -/
def State.performHome (s : State) (p d va size : Nat) (home : Bool) (f : List Byte → Option (List Byte)) :
    Except Refused (State × List Byte) :=
  match s.homeReady p d va home with
  | .error r => .error r
  | .ok (s, pa) => .ok (s.homeStep p va pa size home f)

/-! ## Moves of a home's L2 (04 R102, R105; 20 R430) -/

/-- Write a line of a home's L2 back to HBM, where its translation puts it; a refused one stays dirty (04 R105). -/
def State.writeBackLine (s : State) (p die line : Nat) : State :=
  match (s.part p).homeOf die line with
  | some h =>
    if h.dirty = 0 ∨ s.pkg.failedGroups.contains (h.pa / 2 ^ 35) then s
    else
      match translate s p die line false with
      | .ok g => (s.writeBackAt h (g.place line)).setPart p ((s.part p).putHome { h with dirty := 0 })
      | .error _ => s
  | none => s

/-- A line leaves a home's L2, written back first (20 R430). -/
def State.evictHome (s : State) (p die line : Nat) : State :=
  let s := s.writeBackLine p die line
  if ((s.part p).homeOf die line).any (·.dirty != 0) then s else s.setPart p ((s.part p).dropHome die line)

/-- Every line of a partition's home L2 that satisfies a test is written back where it stands and, when `drop`, goes. -/
def State.flushHomes (s : State) (p : Nat) (drop : Bool) (t : HomeLine → Bool) : State :=
  ((s.part p).lines.filter t).foldl (fun s h =>
    if s.pkg.failedGroups.contains (h.pa / 2 ^ 35) then s
    else
      let s := s.writeBack p h
      if drop then s.setPart p ((s.part p).dropHome (homeDie h.pa) h.line) else s) s

/-! ## Atomic operations (09 R226, R227) -/

/-- The value a 64-bit atomic writes, by its operation number; none for a compare and swap that fails. -/
def atomicNew (op : Nat) (old b cmp : Word) : Option Word :=
  match op with
  | 0 => some (old + b)
  | 1 => some (if old.toInt ≤ b.toInt then old else b)
  | 2 => some (if b.toInt ≤ old.toInt then old else b)
  | 3 => some (old &&& b)
  | 4 => some (old ||| b)
  | 5 => some (old ^^^ b)
  | 6 => some b
  | _ => if old = cmp then some b else none

/-- What an access writes at its place, from the old bytes; none when it writes nothing. -/
def Access.result (a : Access) (old : List Byte) : Option (List Byte) :=
  match a.op with
  | .load => none
  | .store => some a.data
  | .atomic op b cmp => (atomicNew op (BitVec.ofNat 64 (leNat old)) b cmp).map fun w => leBytes 8 w.toNat
  | .casq new cmp => if leNat old = cmp.toNat then some (leBytes 16 new.toNat) else none

/-- Whether an access writes at its place. -/
def Access.writes (a : Access) : Bool :=
  match a.op with
  | .load => false
  | _ => true

/-! ## Single places (05 R118) -/

/-- The words of a queue window: each record's 64-byte image, zero where no record is queued (15 R337)
(log entry 70: DESIGN CHOICE, unsafe). -/
def queueImage (q : List Record) : List Byte :=
  (q.flatMap fun r => ((r.words ++ List.replicate 16 0).take (8 * r.size)).flatMap fun w => leBytes 8 w.toNat)

/-- QSTAT of a core (04 R88). -/
def Core.qstat (k : Core) : Nat :=
  let used (q : List Record) : Nat := (q.map (·.size)).foldl (· + ·) 0
  k.clsNow * 2 ^ 32 + Nat.min 32 (used k.rx) * 2 ^ 16 + (16 - Nat.min 16 (used k.inj))

/-- Bytes at a single place; the queue windows and QSTAT show the core's queues (04 R88, 15 R337). -/
def State.placeBytes (s : State) (pa n : Nat) : List Byte :=
  let c := (pa - 2 ^ 53) / 2 ^ 26
  let off := (pa - 2 ^ 53) % 2 ^ 26
  if pa < 2 ^ 53 ∨ 2 ^ 60 ≤ pa then s.load pa n
  else if 0x01000000 ≤ off ∧ off < 0x01000400 then
    ((queueImage (s.core c).inj).drop (off - 0x01000000) ++ List.replicate n 0).take n
  else if 0x01001000 ≤ off ∧ off < 0x01001800 then
    ((queueImage (s.core c).rx).drop (off - 0x01001000) ++ List.replicate n 0).take n
  else if 0x01005000 ≤ off ∧ off < 0x01005008 then
    ((leBytes 8 (s.core c).qstat).drop (off - 0x01005000)).take n
  else s.load pa n

/-- Serve the waiters of semaphore `n` of a core in arrival order, `fuel` of them: the head takes its amount and becomes
ready when the value covers it (09 R231). -/
def State.serveSem (s : State) (c n : Nat) : Nat → State
  | 0 => s
  | fuel + 1 =>
    let k := s.core c
    match k.semWait.find? (·.2 == n) with
    | none => s
    | some (t, _) =>
      let at_ := windowPlace c (semOffset n)
      match s.thread t with
      | some th =>
        match th.wait with
        | .sem _ amount =>
          if amount.toNat ≤ (s.loadWord at_).toNat then
            let s := (s.storeWord at_ (s.loadWord at_ - amount)).wakeSlot t .woken
            (s.setCore c { k with semWait := k.semWait.erase (t, n) }).serveSem c n fuel
          else s
        | _ => (s.setCore c { k with semWait := k.semWait.erase (t, n) }).serveSem c n fuel
      | none => (s.setCore c { k with semWait := k.semWait.erase (t, n) }).serveSem c n fuel

/-- TFULL of a latch. -/
def Core.tfull (k : Core) (b : Bool) : Bool := if b then k.tfullB else k.tfullA

/-- The core with TFULL of a latch set. -/
def Core.setTfull (k : Core) (b v : Bool) : Core := if b then { k with tfullB := v } else { k with tfullA := v }

/-- Whether an access has performed and its acknowledgement is outstanding. -/
def Access.hasPerformed (a : Access) : Bool :=
  match a.state with
  | .performed _ => true
  | .issued => false

/-- The latch whose granule an access stores, once its load has bound (11 R267). -/
def Access.latchStore (a : Access) : Option Bool :=
  match a.dst, a.op with
  | .latch b _, .store => some b
  | _, _ => none

/-- Whether an access fills a latch. -/
def Access.fillsLatch (a : Access) (b : Bool) : Bool :=
  match a.dst with
  | .latch x _ => x == b
  | _ => false

/-- Whether every granule of a thread's LATCH has performed (11 R267). -/
def Thread.latched (t : Thread) (b : Bool) : Bool := t.acc.all fun a => !a.fillsLatch b || a.hasPerformed

/-- Semaphore `n` of a core has changed: a thread that waits on it wakes the core's sleepers, and its waiters are served
(09 R231; 03 R83). -/
def State.semChanged (s : State) (c n : Nat) : State :=
  let s := if (s.core c).semWait.any (·.2 == n) then s.wakeCore c else s
  s.serveSem c n 4

/-- The granules of a thread's LATCH leave SQ when all of them have performed, and TFULL of the latch is set, unless a
refused granule has ended the LATCH (11 R267; 17 R368). -/
def State.latchEnd (s : State) (t : Nat) (b : Bool) : State :=
  match s.thread t with
  | none => s
  | some th =>
    if th.latched b then
      let s := s.setThread t { th with acc := th.acc.filter fun a => !a.fillsLatch b }
      let c := coreOfKey t
      let k := s.core c
      if k.latchJob.contains (b, t) then
        s.setCore c (({ k with latchJob := k.latchJob.filter (· != (b, t)) } : Core).setTfull b true)
      else s
    else s

/-- A LATCH of a core completes when its 32 stores have performed (11 R267). -/
def State.latchDone (s : State) (c : Nat) (b : Bool) : State :=
  match (s.core c).latchJob.find? (·.1 == b) with
  | some (_, t) => s.latchEnd t b
  | none => s

/-- Bytes stored at a single place; a store to a semaphore serves its waiters; a store to a queue window or QSTAT performs
nothing (15 R337, 18 R393). -/
def State.storePlace (s : State) (pa : Nat) (bs : List Byte) : State :=
  let off := (pa - 2 ^ 53) % 2 ^ 26
  if 2 ^ 53 ≤ pa ∧ pa < 2 ^ 60 ∧
      ((0x01000000 ≤ off ∧ off < 0x01001800) ∨ (0x01005000 ≤ off ∧ off < 0x01005008)) then s
  else
    let s := (s.store pa bs).wakeWatch pa
    if 2 ^ 53 ≤ pa ∧ pa < 2 ^ 60 ∧ 0x01002000 ≤ off ∧ off < 0x01002020 then
      let c := (pa - 2 ^ 53) / 2 ^ 26
      let first := (off - 0x01002000) / 8
      let last := Nat.min 3 ((off + bs.length - 1 - 0x01002000) / 8)
      (List.range (last + 1 - first)).foldl (fun s i => s.semChanged c (first + i)) s
    else s

/-! ## Stores of an engine's hart (05 R132, 12 R305) -/

/-- The place of an engine: its compute die, or the control die (05 R117, 12 R305). -/
def engineDie (loc : Nat) : Nat :=
  if loc < 8576 then dieOfCluster (loc - 8192)
  else if loc < 9088 then dieOfCluster (loc - 8704)
  else if loc < 9222 then loc - 9216
  else if loc < 9244 then (loc - 9232) / 2
  else controlDie

/-- A store of an engine's hart performs at a place (05 R118, R121). -/
def State.engStoreAt (s : State) (p die : Nat) (st : EngStore) (pa : Nat) : State :=
  match nameOf st.va with
  | .tile _ _ => s.storePlace pa st.data
  | _ => if st.atom then (s.storeAt p pa st.data).wakeWatch pa else s.perform0At p die st.va (lineOf pa) st.data

/-- A command without a store that has performed; its completion publishes the line of one to cacheable memory (05 R125,
R132). -/
def Command.performed (c : Command) (st : EngStore) : Command :=
  { c with
    sq := c.sq.erase st
    lines := if nameOf st.va == .translated && !st.atom && engineDie c.engine != controlDie then
        lineOf st.va :: c.lines.filter (· != lineOf st.va)
      else c.lines }

/-- A store of a command performs at the place that has been accepted for it. -/
def State.engPerformed (s : State) (n : Nat) (c : Command) (st : EngStore) (pa : Nat) : State :=
  (s.engStoreAt c.part (engineDie c.engine) st pa).setCommand n (c.performed st)

/-! ## Steps on one access of a thread -/

/-- The addresses an access names: those it accesses and, for a LATCH, those of the latch granule it fills (11 R267). -/
def Access.ranges (a : Access) : List (Nat × Nat) :=
  (a.va, a.size) :: match a.dst with
    | .latch b off => [(windowBase + latchOffset b + off, 64)]
    | _ => []

/-- Whether the next step of an access names a byte that another one names. -/
def Access.overlaps (a b : Access) : Bool :=
  a.ranges.any fun x => decide (x.1 < b.va + b.size) && decide (b.va < x.1 + x.2)

/-- The accesses of a thread before one of them, oldest first. -/
def Thread.before (t : Thread) (a : Access) : List Access := t.acc.filter fun b => decide (b.id < a.id)

/-- Whether an access may take its next step now (05 R120, R123). An earlier access that overlaps it has gone or performed,
but for a store that a load takes its bytes from. A G = 0 store, which changes the L1 at once, and a completion, which
changes it too, wait until the earlier access has completed (05 R135; log entry 86: DEDUCED, safe). A granule of a LATCH that
has performed waits for the others (11 R267), and a request to another node for its reply. -/
def Thread.mayGo (t : Thread) (a : Access) : Bool :=
  a.place != .remote && (if a.hasPerformed then (a.latchStore.map t.latched).getD true else true)
    && (t.before a).all fun b =>
      !b.overlaps a || (b.op == .store && a.op == .load)
        || (b.hasPerformed && !a.hasPerformed && (a.op == .load || a.home || a.op != .store))

/-- The bytes that an entry of SQ has put in place of the old ones, or will: those of a store, or of an atomic that has
performed (05 R120). -/
def Access.written (a : Access) : Option (List Byte) :=
  match a.op, a.state with
  | .load, _ => none
  | .store, _ => some a.data
  | _, .performed old => a.result old
  | _, .issued => none

/-- Bytes of a load, each taken from the youngest earlier entry of the thread's SQ that writes it (05 R120). -/
def overlaySq (entries : List Access) (va : Nat) (bs : List Byte) : List Byte :=
  entries.foldl
    (fun bs st =>
      match st.written with
      | some data =>
        bs.mapIdx fun i b => if st.va ≤ va + i ∧ va + i < st.va + st.size then (data[va + i - st.va]?).getD b else b
      | none => bs) bs

/-- Whether entries of a thread's SQ give every byte of a load (05 R120). -/
def sqCovers (entries : List Access) (va n : Nat) : Bool :=
  (List.range n).all fun i => entries.any fun st =>
    st.written.isSome && decide (st.va ≤ va + i) && decide (va + i < st.va + st.size)

/-- Bytes of a word as a register receives them: zero- or sign-extended (09 R222). -/
def extend (bs : List Byte) (signed : Bool) : Word :=
  let n := leNat bs
  if signed && decide (2 ^ (8 * bs.length) ≤ 2 * n) && decide (bs.length < 8) then
    BitVec.ofNat 64 (2 ^ 64 - 2 ^ (8 * bs.length) + n)
  else BitVec.ofNat 64 n

/-- A v register with some bytes replaced. -/
def patchV (w : VWord) (off : Nat) (bs : List Byte) : VWord :=
  BitVec.ofNat 256 (leNat (patch (leBytes 32 w.toNat) off bs))

/-- One granule captured by the matrix unit (11 R271). When an MMR has captured all of them, both TFULL bits clear and the
captured latches wait to pass (R272). -/
def Core.capture (k : Core) (off : Nat) (bs : List Byte) : Core :=
  match k.mx with
  | none => k
  | some j =>
    let j := { j with got := j.got.put off bs }
    let k := { k with mx := some j }
    if j.pass && decide (j.need ≤ j.got.length) then
      let whole (b : Bool) : List Byte :=
        (List.range 32).flatMap fun g => (j.got.find (latchOffset b + 64 * g)).getD (List.replicate 64 0)
      { k with tfullA := false, tfullB := false, passOut := [(false, List.range 32, whole false), (true, List.range 32, whole true)] }
    else k

/-- Deliver bound bytes to their destination. -/
def State.deliver (s : State) (t : Nat) (dst : Dst) (bs : List Byte) : State :=
  match s.thread t with
  | none => s
  | some th =>
    let c := coreOfKey t
    match dst with
    | .none => s
    | .x d _ signed taint => s.setThread t (th.setX d (extend bs signed) taint)
    | .pair d taint =>
      s.setThread t ((th.setX d (BitVec.ofNat 64 (leNat (bs.take 8))) taint).setX (regNat (d.val + 1))
        (BitVec.ofNat 64 (leNat (bs.drop 8))) taint)
    | .v d off => s.setThread t (th.setV d (patchV (th.getV d) off bs))
    | .latch _ _ => s
    | .unit off =>
      s.setCore c ((s.core c).capture off bs)
    | .future f => s.post f (.resolve f (extend bs false) 0)

/-- Take an access off its thread's list. -/
def State.retire (s : State) (t id : Nat) : State :=
  match s.thread t with
  | some th => s.setThread t { th with acc := th.acc.filter (·.id != id) }
  | none => s

/-- Retire a bound load or atomic: its destination is written, and an acquire drops the core's unsealed L1 lines in the
same step (05 R126, R128). -/
def State.finish (s : State) (t : Nat) (a : Access) (bs : List Byte) : State :=
  let s := (s.deliver t a.dst bs).retire t a.id
  match a.ord with
  | .acq | .ar => s.acquire (coreOfKey t) a.scope
  | _ => s

/-- A load has its bytes. That of a LATCH goes on as the store of the granule to its latch (11 R267), with the poison of the
granule (21 R441); any other load retires. -/
def State.bound (s : State) (t : Nat) (a : Access) (bs : List Byte) (bad : Bool) : State :=
  match a.dst, s.thread t with
  | .latch b off, some th =>
    let c := coreOfKey t
    let st := { a with
      op := .store, va := windowBase + latchOffset b + off, place := .single (windowPlace c (latchOffset b + off))
      data := bs, bad := bad }
    s.setThread t { th with acc := th.acc.map fun x => if x.id = a.id then st else x }
  | _, _ => s.finish t a bs

/-- What a refused granule ends: its LATCH does not complete and its ZLD leaves the tile (17 R368). -/
def State.dropFill (s : State) (t : Nat) (dst : Dst) : State :=
  let c := coreOfKey t
  match dst with
  | .latch b _ => s.setCore c { s.core c with latchJob := (s.core c).latchJob.filter (· != (b, t)) }
  | .unit _ => s.setCore c { s.core c with mx := none }
  | _ => s

/-- Whether two accesses are the halves of one VLD or VST on an ATOM page (10 R257). -/
def Access.partner (a b : Access) : Bool :=
  a.place == .atom && b.place == .atom && bitsOf a.desc 59 57 == 5 && b.desc == a.desc && b.fpc == a.fpc && b.info == a.info

/-- The access that a refusal reports: of a VLD or VST on an ATOM page all 32 bytes (20 R423; log entry 110: DEDUCED, unsafe). -/
def Access.whole (a : Access) : Access :=
  if a.place = .atom ∧ bitsOf a.desc 59 57 = 5 then { a with va := a.va / 32 * 32, size := 32 } else a

/-- A refused access performs nothing; its cause is deferred (17 R366, 20 R426), or reported through its future
(20 R428). -/
def State.refuseAccess (s : State) (t : Nat) (a : Access) (r : Refused) : State :=
  match s.thread t with
  | some th =>
    let s := s.s2refusal th.part a.va r
    match a.dst with
    | .future f =>
      (s.retire t a.id).post f
        (.resolve f (BitVec.ofNat 64 a.info) (BitVec.ofNat 16 (r.cause.code * 256 + r.reason)))
    | _ =>
    let d : Deferred := ⟨r.cause, BitVec.ofNat 64 a.info, BitVec.ofNat 64 (a.desc + r.bits), a.whole⟩
    (s.dropFill t a.dst).setThread t
      { th with acc := th.acc.filter (fun b => b.id != a.id && !a.partner b), deferred := th.deferred ++ [d] }
  | none => s

/-- SRC of the syndrome for poison found at a single place or in HBM (21 R445). -/
def placeSrc (pa : Nat) : Nat :=
  if pa < 2 ^ 40 ∨ 2 ^ 60 ≤ pa then 5 else if pa < 2 ^ 53 then 3 else if (pa - 2 ^ 53) % 2 ^ 26 < 0x40000 then 1 else 2

/-- A thread of a core consumes poison that was detected at a SRC: the core stops, and CORE_KILL acts (21 R441, R442)
(log entry 57: DESIGN CHOICE, unsafe). -/
def State.consumeFrom (s : State) (c pa src : Nat) : State :=
  if (s.core c).consumed.isSome then s else s.setCore c { s.core c with consumed := some (src, lineOf pa) }

/-- A thread of a core consumes poison of a place. -/
def State.consume (s : State) (c pa : Nat) : State := s.consumeFrom c pa (placeSrc pa)

/-- A thread of a core consumes the poison of a line. -/
def State.consumeLine (s : State) (c : Nat) (l : LineData) : State := s.consumeFrom c l.pa l.src

/-- Whether a bound byte that came poisoned is consumed: always, but for the load of a LATCH (21 R441). -/
def Access.consumes (a : Access) (bad : Bool) : Bool :=
  bad && match a.dst with
    | .latch _ _ => false
    | _ => true

/-- bind (05 R120) of a load of thread `t`. The translation of the line must be in the slice's cache, or not be needed. -/
def State.bindAccess (s : State) (t : Nat) (th : Thread) (a : Access) : State :=
  let c := coreOfKey t
  let d := dieOfCore c
  let sq := th.before a
  match a.place with
  | .single pa =>
    if a.consumes (s.isPoisoned pa) then s.consume c pa
    else s.bound t a (overlaySq sq a.va (s.placeBytes pa a.size)) (s.isPoisoned pa)
  | .line =>
    let line := lineOf a.va
    let give (s : State) (l : LineData) : State :=
      if a.consumes l.bad then s.consumeLine c l
      else s.bound t a (overlaySq sq a.va ((l.data.drop (a.va % 64)).take a.size)) l.bad
    match (s.l1Line c th.part line).filter fun l => l.isSealed || a.l1ok with
    | some l => give s ⟨l.data, l.bad, l.pa, 2⟩
    | none =>
      match s.slice th.part d line a.isSealed with
      | .error r => s.refuseAccess t a r
      | .ok (s, l) =>
        let sealedHere := match s.l1Line c th.part line with
          | some x => x.isSealed
          | none => false
        give (if sealedHere then s else s.fillL1 c th.part ⟨th.part, line, l.pa, l.data, a.isSealed, l.bad⟩) l
  | _ => s

/-- A load that binds at its home: an RLD, bypassing every L1 and COPY (12 R302; 05 R120). -/
def State.bindHome (s : State) (t : Nat) (th : Thread) (a : Access) : State :=
  let line := lineOf a.va
  match linePage s th.part (dieOfCore (coreOfKey t)) line false with
  | .error r => s.refuseAccess t a r
  | .ok g =>
    let l := s.homeData th.part line (g.place line)
    if l.bad then s.consumeLine (coreOfKey t) l
    else
      (s.fetchHome th.part line (g.place line) g.w).finish t a
        (overlaySq (th.before a) a.va ((l.data.drop (a.va % 64)).take a.size))

/-- The step an ATOM page's unit takes on one operation (04 R112): at most 16 bytes, indivisible. -/
def State.atomUnit (s : State) (t : Nat) (th : Thread) (a : Access) : State :=
  match translate s th.part (dieOfCore (coreOfKey t)) (lineOf a.va) a.writes with
  | .error r => s.refuseAccess t a r
  | .ok g =>
    match g.allows a.writes a.atom with
    | .error r => s.refuseAccess t a r
    | .ok g =>
      let pa := g.place a.va
      if s.isPoisoned pa && a.op != .store then s.consume (coreOfKey t) pa
      else
        let old := s.load pa a.size
        let s := match a.result old with
          | some bs => s.storeAt th.part pa bs
          | none => s
        let s := if a.writes then s.wakeWatch pa else s
        s.finish t a (if a.op = .load then overlaySq (th.before a) a.va old else old)

/-- A line joins those that a release at .p still has to publish, with the address of the store's instruction
(05 R125). -/
def Thread.noteAt (th : Thread) (line fpc : Nat) : Thread :=
  { th with wset := (line, fpc) :: th.wset.filter (·.1 != line) }

/-- The line of a G = 0 store joins the lines a release at .p still has to publish (05 R125). -/
def Thread.noteLine (th : Thread) (a : Access) : Thread := th.noteAt (lineOf a.va) a.fpc

/-- perform0 of a thread's G = 0 store (05 R121), or the one step of any store or atomic at a single place (R122). A G = 0
store to a cacheable line joins the lines a release at .p still has to publish (R125). -/
def State.performAccess (s : State) (t : Nat) (th : Thread) (a : Access) : State :=
  let c := coreOfKey t
  match a.place with
  | .single pa =>
    if s.isPoisoned pa && a.op != .store then s.consume c pa
    else
      let old := s.placeBytes pa a.size
      let s := match a.result old with
        | some bs => s.storePlace pa bs
        | none => s.wakeWatch pa
      if a.latchStore.isSome then
        let s := if a.bad then { s with poison := lineOf pa :: s.poison } else s
        match s.thread t with
        | some th =>
          s.setThread t { th with acc := th.acc.map fun b => if b.id = a.id then { b with state := .performed old } else b }
        | none => s
      else s.finish t a old
  | .line =>
    match s.perform0 th.part (dieOfCore c) a.va (some c) a.data with
    | .error r => s.refuseAccess t a r
    | .ok s =>
      match (s.retire t a.id).thread t with
      | some th => (s.retire t a.id).setThread t (th.noteLine a)
      | none => s
  | _ => s

/-- perform_home of a thread's G = 1 store or atomic (05 R122): the acknowledgement is outstanding afterwards. An atomic that
meets poison performs nothing (21 R441). -/
def State.performHomeAccess (s : State) (t : Nat) (th : Thread) (a : Access) : State :=
  match s.homeReady th.part (dieOfCore (coreOfKey t)) a.va a.home with
  | .error r => s.refuseAccess t a r
  | .ok (s, pa) =>
    let l := s.homeData th.part (lineOf a.va) (lineOf pa)
    if l.bad && a.op != .store then s.consumeLine (coreOfKey t) l
    else
      let (s, old) := s.homeStep th.part a.va pa a.size a.home a.result
      match s.thread t with
      | some th =>
        s.setThread t { th with acc := th.acc.map fun b => if b.id = a.id then { b with state := .performed old } else b }
      | none => s

/-- complete (05 R122): L1 takes the bytes the operation wrote, the destination the old ones. A G = 0 atomic leaves copies
that a release at .p removes on every die (R125). -/
def State.completeAccess (s : State) (t : Nat) (th : Thread) (a : Access) (old : List Byte) : State :=
  let s := match a.result old with
    | some bs => s.patchL1 (coreOfKey t) th.part a.va bs
    | none => s
  let s := if !a.home && a.op != .store then
      (match s.thread t with
       | some th => s.setThread t { th.noteLine a with aset := lineOf a.va :: th.aset.filter (· != lineOf a.va) }
       | none => s)
    else s
  s.finish t a old

/-- The access of a thread with a number. -/
def Thread.access (th : Thread) (id : Nat) : Option Access := th.acc.find? (·.id == id)

/-- Whether an access needs a translation that its slice does not hold: a line that the L2 of its die holds needs none,
unless it is written and was filled with W = 0 (04 R105, 20 R425). -/
def State.lacksXlate (s : State) (t : Nat) (th : Thread) (a : Access) : Bool :=
  let c := coreOfKey t
  let d := dieOfCore c
  let k := s.part th.part
  let line := lineOf a.va
  let cached := match k.cached d line with
    | some e => e.w || !a.writes
    | none => false
  match a.place with
  | .atom => !cached
  | .line =>
    if cached || ((k.held d line).map fun h => h.2 || !a.writes).getD false then false
    else if a.writes || a.home then true
    else !((s.l1Line c th.part line).any fun l => l.isSealed || a.l1ok)
  | _ => false

/-- What a walk decides for one access that waited for it: a refusal, or that it may go on (20 R424). -/
def Access.verdict (a : Access) (r : Except Refused Page) : Option Refused :=
  match r with
  | .error e => some e
  | .ok g =>
    match g.allows a.writes a.atom with
    | .error e => some e
    | .ok _ => none

/-- Refuse the accesses of one thread that wait for a line and that its walk refuses, each as it reads or writes. -/
def State.refuseWaiting (s : State) (t line : Nat) : State :=
  match s.thread t with
  | none => s
  | some th =>
    th.acc.foldl
      (fun s a =>
        if lineOf a.va = line ∧ (a.place = .line ∨ a.place = .atom) ∧ a.state = .issued ∧ s.lacksXlate t th a
            ∧ (s.thread t).any (·.acc.any (·.id == a.id)) then
          match a.verdict (walk s th.part line a.writes) with
          | some e => s.refuseAccess t a e
          | none => s
        else s) s

/-- The walkers serve the slice miss of an access of a die (04 R105; 20 R424, R425): the page is entered when nothing refuses the
access, and every access that waits for the line and that its walk refuses becomes a deferred cause. -/
def State.serveWalk (s : State) (p e : Nat) (a : Access) : State :=
  let line := lineOf a.va
  let s := match walk s p line a.writes with
    | .ok g => if (a.verdict (.ok g)).isNone then s.fillXlate p e line g else s
    | .error _ => s
  s.threads.foldl
    (fun s x => if x.2.part = p ∧ dieOfCore (coreOfKey x.1) = e then s.refuseWaiting x.1 line else s) s

/-- Whether the home of a line is unreachable, so that no acknowledgement of it arrives: its memory group is contained
(17 R437, 21 R450). -/
def State.unreachable (s : State) (p die va : Nat) : Bool :=
  match (s.part p).held die (lineOf va) with
  | some (pa, _) => s.pkg.failedGroups.contains (pa / 2 ^ 35)
  | none =>
    match translate s p die (lineOf va) true with
    | .error r => r.place == 4 && r.reason == 3
    | .ok _ => false

/-- One step of progress for one access: a load that its thread's SQ gives whole binds (05 R120); otherwise comes the walk it
needs, else its bind, perform or completion. One that is lost takes no step (20 R437). -/
def State.advance (s : State) (t : Nat) (th : Thread) (a : Access) : State :=
  if a.lost then s
  else if a.op == .load && a.state == .issued && a.place != .remote && sqCovers (th.before a) a.va a.size then
    s.bound t a (overlaySq (th.before a) a.va (List.replicate a.size 0)) false
  else if s.lacksXlate t th a then s.serveWalk th.part (dieOfCore (coreOfKey t)) a
  else if a.state == .issued && (a.place == .line || a.place == .atom)
      && s.hostWaits th.part (dieOfCore (coreOfKey t)) (lineOf a.va) then s
  else
    match a.state, a.place, a.op with
    | .performed _, .single _, _ => s.latchEnd t (a.latchStore.getD false)
    | .performed old, _, _ => s.completeAccess t th a old
    | .issued, .remote, _ => s
    | .issued, .atom, _ => s.atomUnit t th a
    | .issued, .single _, .load => s.bindAccess t th a
    | .issued, .single _, _ => s.performAccess t th a
    | .issued, .line, .load => if a.home then s.bindHome t th a else s.bindAccess t th a
    | .issued, .line, .store => if a.home then s.performHomeAccess t th a else s.performAccess t th a
    | .issued, .line, _ => s.performHomeAccess t th a

/-- One step of progress for a thread: its oldest access that may go. -/
def State.progress (s : State) (t : Nat) : State :=
  match s.thread t with
  | none => s
  | some th =>
    match th.acc.find? th.mayGo with
    | some a => s.advance t th a
    | none => s

end Sys2Proof.Machine
end

