-- ==== Sys2Proof/Machine/Tile.lean ====
section
/-!
DEFINITION. The matrix unit (spec/11 R260 to R279, spec/06 R155 to R158): operand shapes, the accumulation of a tile, tile
loads and stores as numbers, and the end of an occupancy.
-/

namespace Sys2Proof.Machine

/-! ## Operand shapes (11 R263, 07 R187) -/

/-- K of a pair (11 R263). -/
def pairK (pair : Nat) : Nat :=
  if pair = 0 then 16 else if pair = 1 ∨ pair = 2 ∨ pair = 14 then 32 else if pair = 9 ∨ pair = 13 then 128 else 64

/-- Planes of a bit-plane pair, none for the others. -/
def pairPlanes (pair : Nat) : Nat := if 15 ≤ pair then pair - 13 else 0

/-- Format of A (07 R187): U = 1 makes it unsigned. -/
def pairFmtA (pair : Nat) (u : Bool) : Nat :=
  if pair = 0 then 0x00 else if pair = 1 then 0x01 else if pair = 2 then 0x02
  else if pair = 3 ∨ pair = 4 then 0x03 else if pair = 5 ∨ pair = 6 then 0x04
  else if pair = 7 then 0x05 else if pair = 8 then 0x06 else if pair = 9 then 0x07
  else if pair = 10 then 0x03 else if pair = 11 then 0x07
  else if pair = 12 then (if u then 0x0A else 0x09) else if pair = 13 then (if u then 0x0C else 0x0B)
  else if pair = 14 then 0x08 else pair - 2

/-- Format of B. -/
def pairFmtB (pair : Nat) : Nat :=
  if pair = 0 then 0x00 else if pair = 1 then 0x01 else if pair = 2 then 0x02
  else if pair = 3 ∨ pair = 5 then 0x03 else if pair = 4 ∨ pair = 6 then 0x04
  else if pair = 7 then 0x05 else if pair = 8 then 0x06 else if pair = 9 then 0x07
  else if pair = 10 then 0x07 else if pair = 11 then 0x03
  else if pair = 13 then 0x0B else if pair = 14 then 0x08 else 0x09

/-- Bytes of an operand of 32 × K elements of a format. -/
def operandBytes (pair fmt : Nat) : Nat := 4 * pairK pair * fmtWidth fmt

/-- Bytes of B. -/
def bytesB (pair : Nat) : Nat := operandBytes pair (pairFmtB pair)

/-- The byte ranges of A, from its base: each plane of a bit-plane operand, else the whole (11 R264). -/
def rangesA (pair : Nat) (u : Bool) (base ps : Nat) : List (Nat × Nat) :=
  if 15 ≤ pair then (List.range (pairPlanes pair)).map fun j => (base + j * ps, 256)
  else [(base, operandBytes pair (pairFmtA pair u))]

/-- The 64-byte granules that byte ranges touch, ascending, without repeats. -/
def granulesOf (rs : List (Nat × Nat)) : List Nat :=
  let gs := rs.flatMap fun r => (List.range ((r.1 + r.2 - 1) / 64 + 1 - r.1 / 64)).map fun i => (r.1 / 64 + i) * 64
  gs.foldl (fun l g => if l.contains g then l else l.takeWhile (· < g) ++ g :: l.dropWhile (· < g)) []

/-! ## Elements (06 R142, R147, R148) -/

/-- Elements of a width packed in a number, the first lowest. -/
def codesOf (wid n x : Nat) : List Nat := (List.range n).map fun i => x / 2 ^ (wid * i) % 2 ^ wid

/-- A list cut into lists of `k`, at most `n` of them. -/
def chunks {α : Type} (k : Nat) : Nat → List α → List (List α)
  | 0, _ => []
  | n + 1, l => if l.isEmpty then [] else l.take k :: chunks k n (l.drop k)

/-- `n` captured bytes from an offset. -/
def capturedBytes (got : Map (List Byte)) (start n : Nat) : List Byte :=
  let gs := (List.range ((start + n + 63) / 64 - start / 64)).map fun i => (start / 64 + i) * 64
  ((gs.flatMap fun g => (got.find g).getD (List.replicate 64 0)).drop (start % 64)).take n

/-- A signed `k`-bit integer from its bits, the sign first (06 R148). -/
def signedBits (k : Nat) (bits : List Nat) : Int :=
  let n : Nat := bits.foldl (fun acc b => 2 * acc + b) 0
  if 2 * n < 2 ^ k then (n : Int) else (n : Int) - 2 ^ k

/-- The elements of a bit-plane operand of `k` planes (11 R264). -/
def planeElements (planes : List Nat) : List Int :=
  (List.range 2048).map fun e => signedBits planes.length (planes.map fun p => p / 2 ^ e % 2)

/-! ## The accumulation (06 R156 to R158) -/

/-- A product's part in the special cases of R157: an invalid product, and the sign of an infinite one. -/
def Num.special (a b : Num) : Bool × Option Bool :=
  match a.mul b with
  | (.nan _, nv) => (nv && !(a.isNan || b.isNan), none)
  | (.inf n, _) => (false, some n)
  | _ => (false, none)

/-- The block contribution before scaling, and NV (06 R156, R157). -/
def blockSum (a b : List Num) : Num × Bool :=
  let sp := List.zipWith Num.special a b
  let infs := sp.filterMap (·.2)
  let bad := sp.any (·.1) || (infs.contains true && infs.contains false)
  let sig := a.any Num.isSignalling || b.any Num.isSignalling
  if bad || a.any Num.isNan || b.any Num.isNan then (.nan false, bad || sig)
  else
    match infs with
    | n :: _ => (.inf n, false)
    | [] => ((List.zipWith (fun x y => (x.mul y).1) a b).foldl (fun s p => (s.add p).1) (.fin false 0 0), false)

/-- The contribution of a block with its scales; a zero adds +0 (06 R156). -/
def blockTerm (a b : List Num) (sa sb : Nat) : Num × Bool :=
  if sa = 0xFF ∨ sb = 0xFF then (.nan false, true)
  else
    match blockSum a b with
    | (.fin n m e, nv) => (.fin (n && m != 0) m (e + ((sa : Int) - 127) + ((sb : Int) - 127)), nv)
    | r => r

/-- The binary32 format. -/
def fmt32 : FloatFmt := ⟨8, 23, 127, true⟩

/-- One float accumulator element over its blocks, in ascending K: A, B and the two scales of each. -/
def accFloat (z : Nat) (blocks : List ((List Num × List Num) × (Nat × Nat))) : Nat × Raised :=
  blocks.foldl
    (fun (z, r) x =>
      let (c, nv) := blockTerm x.1.1 x.1.2 x.2.1 x.2.2
      let (v, nv') := (fmt32.value z).add c
      let (z, r') := fmt32.result (v, nv || nv')
      (z, r.or r'))
    (z, .none)

/-- The exact dot product of two lists of integers. -/
def dotInt (a b : List Int) : Int := (List.zipWith (· * ·) a b).foldl (· + ·) 0

/-- One integer accumulator element over its blocks. -/
def accInt (z : Nat) (blocks : List (List Int × List Int)) : Nat × Raised :=
  blocks.foldl
    (fun (z, r) x =>
      let s := intValue 0x15 z + dotInt x.1 x.2
      let c := satInt 0x15 s
      (intCode 0x15 c, r.or { Raised.none with isat := c != s }))
    (z, .none)

/-- Byte `i` of the scale registers' `n`-th register. -/
def scaleByte (vs : List Byte) (n i : Nat) : Nat := ((vs[32 * n + i]?).map (·.toNat)).getD 127

/-- Every element of a tile updated: `f i j z`. -/
def mapTile (z : List Nat) (f : Nat → Nat → Nat → Nat × Raised) : List Nat × Raised :=
  let rs := z.mapIdx fun n x => f (n / 32) (n % 32) x
  (rs.map (·.1), Raised.union (rs.map (·.2)))

/-- Rows of 32 × K elements, each cut into blocks of 32 (06 R156; one block of 16 for f32). -/
def blockRows {α : Type} (k : Nat) (l : List α) : List (List (List α)) := (chunks k 32 l).map (chunks 32 4)

/-- MM on a tile: the captured granules, A's offset and plane stride, and the scale bytes (11 R270)
(log entry 63: DEDUCED, safe). -/
def mmTile (pair : Nat) (u : Bool) (abase ps : Nat) (got : Map (List Byte)) (vs : List Byte) (z : List Nat) :
    List Nat × Raised :=
  let k := pairK pair
  let fa := pairFmtA pair u
  let fb := pairFmtB pair
  let bcodes := codesOf (fmtWidth fb) (32 * k) (leNat (capturedBytes got (latchOffset true) (bytesB pair)))
  let acodes := codesOf (fmtWidth fa) (32 * k) (leNat (capturedBytes got abase (operandBytes pair fa)))
  if pair ≤ 11 then
    let a := blockRows k (acodes.map (fmtValue fa))
    let b := blockRows k (bcodes.map (fmtValue fb))
    let scaled := decide (3 ≤ pair)
    mapTile z fun i j x =>
      let blocks := List.zip ((a[i]?).getD []) ((b[j]?).getD [])
      accFloat x (blocks.mapIdx fun n ab =>
        (ab, if scaled then (scaleByte vs (2 * n) i, scaleByte vs (2 * n + 1) j) else (127, 127)))
  else
    let ints := if 15 ≤ pair then
        planeElements ((List.range (pairPlanes pair)).map fun p => leNat (capturedBytes got (abase + p * ps) 256))
      else acodes.map (intValue fa)
    let a := blockRows k ints
    let b := blockRows k (bcodes.map (intValue fb))
    mapTile z fun i j x => accInt x (List.zip ((a[i]?).getD []) ((b[j]?).getD []))

/-! ## Tile loads and stores (11 R276, R277) -/

/-- One element of a ZLD (11 R276). -/
def zldElement (fmt x : Nat) : Nat × Raised :=
  if fmt = 0x00 ∨ fmt = 0x15 then (x, .none)
  else if fmt = 0x01 ∨ fmt = 0x02 then convert 0x00 .rne (fmtValue fmt x)
  else (intCode 0x15 (intValue fmt x), .none)

/-- A tile from the bytes of a ZLD. -/
def zldTile (fmt : Nat) (bs : List Byte) : List Nat × Raised :=
  let rs := (codesOf (fmtWidth fmt) 1024 (leNat bs)).map (zldElement fmt)
  (rs.map (·.1), Raised.union (rs.map (·.2)))

/-- Elements of a width joined into bytes, the first lowest (06 R142). -/
def packBytes (wid : Nat) (l : List Nat) : List Byte :=
  let rec go : List Nat → Nat
    | [] => 0
    | x :: xs => x % 2 ^ wid + 2 ^ wid * go xs
  leBytes (l.length * wid / 8) (go l)

/-- The bytes a ZST writes: the elements, the scales of a narrow format, and the flags (11 R277). -/
def zstBytes (fmt : Nat) (z : List Nat) : List Byte × List Byte × Raised :=
  let wid := fmtWidth fmt
  if fmt = 0x00 ∨ fmt = 0x15 then (packBytes 32 z, [], .none)
  else
    match floatFmt fmt with
    | some f =>
      if f.ieee then
        let rs := z.map fun x => convert fmt .rne (fmtValue 0x00 x)
        (packBytes wid (rs.map (·.1)), [], Raised.union (rs.map (·.2)))
      else
        let rows := (chunks 32 32 z).map fun row =>
          encodeBlock fmt f (row.map (fmtValue 0x00)) (List.replicate 32 .rne)
        (packBytes wid (rows.flatMap (·.2.1)), packBytes 8 (rows.map (·.1)), Raised.union (rows.map (·.2.2)))
    | none =>
      let rs := z.map fun x => convert fmt .rne (.ofInt (intValue 0x15 x))
      (packBytes wid (rs.map (·.1)), [], Raised.union (rs.map (·.2)))

/-! ## The tiles and the unit -/

/-- The elements of a z tile, row-major. -/
def State.tile (s : State) (c : Nat) (z : ZTile) : List Nat := codesOf 32 1024 (leNat (s.load (ztilePlace c z 0) 4096))

/-- The state with a z tile written. -/
def State.setTile (s : State) (c : Nat) (z : ZTile) (l : List Nat) : State :=
  s.store (ztilePlace c z 0) (packBytes 32 l)

/-- Whether the unit has captured all its operands. -/
def MxJob.ready (j : MxJob) : Bool := decide (j.need ≤ j.got.length)

/-- The tile an occupancy leaves, with the tile's number and the flags. -/
def MxJob.result (j : MxJob) (tile : ZTile → List Nat) : ZTile × List Nat × Raised :=
  match j.op with
  | .mm pair z u abase ps => (z, mmTile pair u abase ps j.got j.vscale (tile z))
  | .zld z fmt => (z, zldTile fmt (capturedBytes j.got 0 (128 * fmtWidth fmt)))

/-- The end of the matrix unit's occupancy when all operands are captured: the tile is written; the answer holds the slot
whose thread takes the flags, and the flags (11 R270, R276; 06 R162). -/
def State.endUnit (s : State) (c : Nat) : Option (State × Option Nat × Raised) :=
  match (s.core c).mx with
  | none => none
  | some j =>
    if !j.ready then none
    else
      let (z, l, r) := j.result (s.tile c)
      let s := s.setCore c { s.core c with mx := none }
      some (s.setTile c z l, j.slot, r)

/-- The unit's end with the flags given to the thread in the issuing slot. -/
def State.unitDone (s : State) (c : Nat) : State :=
  match s.endUnit c with
  | none => s
  | some (s, slot, r) =>
    match slot with
    | none => s
    | some j =>
      match s.thread (c * 4 + j) with
      | some th => s.setThread (c * 4 + j) (th.raise r)
      | none => s

/-- End the occupancy of a thread's own matrix instruction before its context leaves the core, so that the flags land in
it (06 R162): the state and the thread. -/
def State.flushUnit (s : State) (t : Nat) (th : Thread) : State × Thread :=
  match (s.core (coreOfKey t)).mx with
  | some j =>
    if j.slot = some (t % 4) then
      match s.endUnit (coreOfKey t) with
      | some (s, _, r) => (s, th.raise r)
      | none => (s, th)
    else (s, th)
  | none => (s, th)

/-- Whether the unit cannot take an instruction: an occupancy, or a pass not yet delivered (11 R261, R272). -/
def Core.unitBusy (k : Core) : Bool := k.mx.isSome || !k.passOut.isEmpty

/-- The core a pass goes to: A to ((x − 1) mod 16, y), B to (x, (y − 1) mod 16) (11 R272). -/
def passTarget (c : Nat) (south : Bool) : Nat :=
  let x := c % 16
  let y := c % 256 / 16
  c / 256 * 256 + (if south then (y + 15) % 16 * 16 + x else y * 16 + (x + 15) % 16)

/-- One step of a pass of an MMR (11 R272): it waits for TFULL = 0 at its destination, writes the latch there granule by
granule, and sets TFULL after the last. -/
def State.passOne (s : State) (c : Nat) (south : Bool) : State :=
  let k := s.core c
  match k.passOut.find? (·.1 == south) with
  | none => s
  | some (_, left, bs) =>
    let d := passTarget c south
    if left.length = 32 ∧ (s.core d).tfull south then s
    else
      let (w, s) := s.takeFree
      let n := (left[w.toNat % left.length]?).getD 0
      let still := left.filter (· != n)
      let rest := k.passOut.filter (·.1 != south)
      let s := s.setCore c { k with passOut := if still.isEmpty then rest else rest ++ [(south, still, bs)] }
      let s := s.store (windowPlace d (latchOffset south) + 64 * n) ((bs.drop (64 * n)).take 64)
      if still.isEmpty then s.setCore d ((s.core d).setTfull south true) else s

/-- One step towards a free unit and full latches, for an instruction that waits for them. -/
def State.unitStep (s : State) (c : Nat) : State :=
  let k := s.core c
  match k.latchJob with
  | (_, t) :: _ => s.progress t
  | [] =>
    if (k.mx.map (·.ready)).getD false then s.unitDone c
    else
      match k.passOut with
      | (south, _) :: _ => s.passOne c south
      | [] => s

/-- The instruction at PC of a slot waits for the matrix unit or for a latch, so that its slot does not issue (03 R80). The wait is
for no acknowledgement: it is noted under an address that no PC has (20 R437). -/
def State.markBusy (s : State) (t : Nat) : State :=
  match s.thread t with
  | some th => s.setThread t { th with stuck := some (th.pc.toNat + 1, s.now) }
  | none => s

/-- An instruction waits for the unit, which takes a step. -/
def State.awaitUnit (s : State) : State := (s.markBusy s.cur).unitStep (coreOfKey s.cur)

end Sys2Proof.Machine
end

