-- ==== Sys2Proof/Machine/Ops.lean ====
section
/-!
DEFINITION. The shared operations of every meaning: the step of the hardware loops (spec/08 R210), the order of checks
(spec/18 R386), taking a trap and returning from one (spec/17 R363 to R375), and the issue of an instruction.
-/

namespace Sys2Proof.Machine

/-- The outcome of an instruction or of an operation of the machine. -/
abbrev Out := Host.Outcome State Fault Refusal

/-! ## Program counter and hardware loops (07 R166, 08 R210, R211) -/

/-- Two bytes for each halfword of a count, in the address width. -/
def halves (n : Nat) : BitVec 56 := BitVec.ofNat 56 (2 * n)

/-- First byte of level 0's body. -/
def Thread.start0 (t : Thread) : BitVec 56 := t.lend - halves (t.llen0.toNat + 1)

/-- First byte after level 1's body. -/
def Thread.end1 (t : Thread) : BitVec 56 := t.lend - halves t.dend.toNat

/-- First byte of level 1's body. -/
def Thread.start1 (t : Thread) : BitVec 56 := t.end1 - halves (t.llen1.toNat + 1)

/-- The level 0 part of step(next). -/
def Thread.stepLevel0 (t : Thread) (next : BitVec 56) : Thread :=
  if t.lact0 && next == t.lend then
    let t := { t with lcount0 := t.lcount0 - 1 }
    if t.lcount0 ≠ 0 then { t with pc := t.start0 } else { t with lact0 := false, pc := next }
  else { t with pc := next }

/-- step(next) (08 R210). -/
def Thread.step (t : Thread) (next : BitVec 56) : Thread :=
  if t.lact1 && next == t.end1 then
    let t := { t with lcount1 := t.lcount1 - 1 }
    if t.lcount1 ≠ 0 then { t with pc := t.start1 }
    else if t.dend ≠ 0 then { t with lact1 := false, pc := next }
    else Thread.stepLevel0 { t with lact1 := false } next
  else t.stepLevel0 next

/-- The address after an instruction of a length. -/
def Thread.after (t : Thread) (len : Nat) : BitVec 56 := t.pc + BitVec.ofNat 56 len

/-- The thread after an instruction of a length that completes without taking control (08 R210). -/
def Thread.next (t : Thread) (len : Nat) : Thread := { t.step (t.after len) with stuck := none }

/-- Deactivate level 1, and level 0 with it when `both` (08 R211). -/
def Thread.endLoops (t : Thread) (both : Bool) : Thread :=
  if both then { t with lact0 := false, lact1 := false } else { t with lact1 := false }

/-- A taken transfer ends the levels that end at its sequential successor, and unless it is a call those whose body its
target leaves (08 R211). -/
def Thread.transfer (t : Thread) (len : Nat) (target : BitVec 56) (isCall : Bool) : Thread :=
  let succ := t.after len
  let t0 := t.lact0 && (succ == t.lend
    || (!isCall && !(decide (t.start0.toNat ≤ target.toNat) && decide (target.toNat < t.lend.toNat))))
  let t1 := t.lact1 && (succ == t.end1
    || (!isCall && !(decide (t.start1.toNat ≤ target.toNat) && decide (target.toNat < t.end1.toNat))))
  let t := if t0 then t.endLoops true else if t1 then t.endLoops false else t
  { t with pc := target }

/-! ## Results of a meaning's body -/

/-- What the body of a meaning answers. -/
inductive Res where
  /-- Completed: the next state. -/
  | done (s : State)
  /-- A synchronous trap at this instruction, with INFO and INFO2; the resume address is FPC. -/
  | trap (cause : Cause) (info info2 : Word)
  /-- A synchronous trap with a change that its check makes, a contour register's COUNT (09 R241): it waits until the thread's earlier
  accesses have settled, so that the change comes with the delivery (17 R367, R369). -/
  | trapIn (s : State) (cause : Cause) (info info2 : Word)
  /-- A trap whose resume address follows a completed instruction (18 R392). -/
  | trapAfter (cause : Cause) (info info2 : Word)
  /-- The instruction waits for the thread's earlier accesses. -/
  | settle
  /-- A deferred cause is delivered before the instruction (17 R366). -/
  | deliver
  deriving DecidableEq, Repr

/-! ## Codes -/

/-- Kind codes (07 R179). -/
def TKind.code : TKind → Nat
  | .task => 0
  | .gang => 1
  | .handler => 2
  | .supervisor => 3

/-! ## The end of a thread (12 R298, 17 R375) -/

/-- Free a CLS span of a core (12 R298). -/
def State.freeCls (s : State) (c off len : Nat) : State :=
  let cl := clusterOfCore c
  let k := s.cluster cl
  s.setCluster cl { k with cls := k.cls.filter (· != (c, off, len)) }

/-- Free a task's descriptor and frame in the cluster that holds them. -/
def State.freeTask (s : State) (cl n : Nat) : State :=
  let k := s.cluster cl
  match k.tasks.find n with
  | some tk =>
    let frames := match tk.frame with
      | some b => k.frames.filter fun f => f.1 != b
      | none => k.frames
    s.setCluster cl { k with
      tasks := k.tasks.erase n, parked := k.parked.erase n, frames := frames
      parkOrder := k.parkOrder.filter (· != n), parkSpilled := k.parkSpilled.filter (· != n), parkAt := k.parkAt.erase n
      runq := k.runq.filter (·.task != n), stallSince := s.now }
  | none => s

/-- Retire a gang: its frames, CLS spans and slots are freed, its fused caches invalidated, and its future resolves with
VALUE 0 and status OK (02 R51, 04 R97, 12 R298). -/
def State.retireGang (s : State) (n : Nat) (g : Gang) : State :=
  let s := g.frames.foldl (fun s f =>
    let k := s.cluster f.1
    s.setCluster f.1 { k with frames := k.frames.filter fun x => x.1 != f.2 }) s
  let s := g.spans.foldl (fun s x =>
    let cl := clusterOfCore x.1
    let k := s.cluster cl
    s.setCluster cl { k with cls := k.cls.filter fun y => !(y.1 == x.1 && y.2.1 == x.2) }) s
  let s := if g.fused then
      g.clusters.foldl (fun s cl => (List.range 16).foldl (fun s j =>
        let c := coreOfCluster cl j
        s.setCore c { s.core c with l1 := [], fused := none }) s) s
    else s
  ({ s with gangs := s.gangs.erase n }).post g.future (.resolve g.future 0 0)

/-- Free the frame that a task thread holds in a cluster (03 R76, R81). -/
def State.freeFrame (s : State) (f : Option (Nat × Nat)) : State :=
  match f with
  | some (cl, b) =>
    let k := s.cluster cl
    s.setCluster cl { k with frames := k.frames.filter fun x => x.1 != b }
  | none => s

/-- A gang thread counts towards its gang's retirement (02 R51). -/
def State.gangExit (s : State) (n : Nat) : State :=
  match s.gangs.find n with
  | some g =>
    if g.live ≤ 1 then s.retireGang n { g with live := 0 }
    else { s with gangs := s.gangs.put n { g with live := g.live - 1 } }
  | none => s

/-- End the thread of a slot, of the kind it has below its frames: its resources are freed as 12 R298 gives, and `op` goes
to its own future or REPLY when there is one. -/
def State.endThread (s : State) (t : Nat) (th : Thread) (kind : TKind) (own : Nat × Nat) (op : Word → FutOp) : State :=
  let s := s.dropThread t
  let c := coreOfKey t
  match kind with
  | .task =>
    let s := if own.2 = 0 then s else s.freeCls c own.1 own.2
    let s := match th.task with
      | some (cl, n) => (s.freeFrame th.frameAt).freeTask cl n
      | none => s
    if th.future = 0 then s else s.post th.future (op th.future)
  | .handler =>
    let s := if own.2 = 0 then s else s.freeCls c own.1 own.2
    if th.future = 0 then s else s.post th.future (op th.future)
  | .gang =>
    match th.gang with
    | some n => s.gangExit n
    | none => s
  | .supervisor => s

/-- The frame at the bottom of a thread's frames. -/
def Thread.bottom (th : Thread) : Option TFrame := th.frames.getLast?

/-- The kind of the thread at the bottom of a slot's frames. -/
def Thread.baseKind (th : Thread) : TKind := (th.bottom.map (·.kind)).getD th.kind

/-- The own CLS share of the thread at the bottom of a slot's frames. -/
def Thread.baseOwn (th : Thread) : Nat × Nat := (th.bottom.map fun f => (f.ownOff, f.ownLen)).getD (th.ownOff, th.ownLen)

/-! ## The context image (07 R167) -/

/-- C0 to C3 of a context image. -/
def Thread.imageHead (t : Thread) : List Word :=
  let b (x : Bool) : Nat := bit x
  [ BitVec.ofNat 64 (t.fstat.toNat * 2 ^ 56 + t.pc.toNat),
    BitVec.ofNat 64 (t.taint.toNat / 2 * 2 * 2 ^ 32 + (t.p.toNat / 2 * 2 + 1) * 2 ^ 24 + t.lcount0.toNat),
    BitVec.ofNat 64 (t.lcount1.toNat * 2 ^ 40 + t.llen0.toNat * 2 ^ 30 + t.llen1.toNat * 2 ^ 20
      + t.dend.toNat * 2 ^ 10 + t.spilld.toNat * 4 + b t.lact1 * 2 + b t.lact0),
    BitVec.ofNat 64 (t.lend.toNat / 2 * 2) ]

/-- The bytes of a context image that holds `xc` x registers and `vc` v registers (07 R167). -/
def Thread.image (t : Thread) (xc vc : Nat) : List Byte :=
  let words := t.imageHead ++ t.e.toList ++ t.rs.toList ++ (0 :: (t.x.toList.take xc).drop 1)
  words.flatMap (fun w => leBytes 8 w.toNat) ++ (t.v.toList.take vc).flatMap fun w => leBytes 32 w.toNat

/-- The size of a context image in bytes (02 R35). -/
def imageSize (xc vc : Nat) : Nat := 160 + 8 * xc + 32 * vc

/-- The 64-bit word at a byte offset of an image. -/
def imageWord (bs : List Byte) (off : Nat) : Word := BitVec.ofNat 64 (leNat ((bs.drop off).take 8))

/-- Registers of a file replaced from an image: register `i` from byte `off + i * size`, for `n` of them. -/
def loadFile {w k : Nat} (file : Vector (BitVec w) k) (bs : List Byte) (off size : Nat) : Nat → Vector (BitVec w) k
  | 0 => file
  | n + 1 =>
    let rest := loadFile file bs off size n
    rest.setIfInBounds n (BitVec.ofNat w (leNat ((bs.drop (off + n * size)).take size)))

/-- The thread with its context reloaded from an image (07 R167, 17 R374): PC[0] and every zero bit of C0 to C3 are
ignored; a return-store entry keeps all of its bits (log entry 87: DESIGN CHOICE, unsafe). -/
def Thread.loadImage (t : Thread) (bs : List Byte) (xc vc : Nat) : Thread :=
  let c0 := imageWord bs 0
  let c1 := imageWord bs 8
  let c2 := imageWord bs 16
  let c3 := imageWord bs 24
  let x := (loadFile t.x bs 160 8 xc).set 0 0
  { t with
    fstat := BitVec.ofNat 7 (wbits c0 62 56)
    pc := BitVec.ofNat 56 (wbits c0 55 1 * 2)
    taint := BitVec.ofNat 32 (wbits c1 63 33 * 2)
    p := BitVec.ofNat 8 (wbits c1 31 25 * 2 + 1)
    lcount0 := BitVec.ofNat 24 (wbits c1 23 0)
    lcount1 := BitVec.ofNat 24 (wbits c2 63 40)
    llen0 := BitVec.ofNat 10 (wbits c2 39 30)
    llen1 := BitVec.ofNat 10 (wbits c2 29 20)
    dend := BitVec.ofNat 10 (wbits c2 19 10)
    spilld := BitVec.ofNat 6 (wbits c2 7 2)
    lact1 := wbits c2 1 1 == 1
    lact0 := wbits c2 0 0 == 1
    lend := BitVec.ofNat 56 (wbits c3 55 1 * 2)
    e := loadFile t.e bs 32 8 8
    rs := loadFile t.rs bs 96 8 8
    x := x
    v := loadFile t.v bs (160 + 8 * xc) 32 vc }

/-- x and v registers a thread's image holds: all of them at S (17 R370). -/
def Thread.imageCounts (t : Thread) : Nat × Nat :=
  if t.supervisor then (32, 32) else (t.hdr.xcount, t.hdr.vcount)

/-! ## Completion at a scope (05 R125) -/

/-- Whether every earlier access of a thread is complete at a scope (05 R125). -/
def Thread.completeAt (th : Thread) (sc : Scope) : Bool :=
  match sc with
  | .t => true
  | .c | .k | .d => th.acc.isEmpty
  | .p | .s => th.acc.isEmpty && th.wset.isEmpty

/-- The thread with the cycle since which its instruction waits for accesses noted (20 R437). -/
def Thread.mark (th : Thread) (now : Nat) : Thread :=
  match th.stuck with
  | some (pc, _) => if pc = th.pc.toNat then th else { th with stuck := some (th.pc.toNat, now) }
  | none => { th with stuck := some (th.pc.toNat, now) }

/-- The state with the wait of a slot's instruction noted. -/
def State.markWait (s : State) (t : Nat) : State :=
  match s.thread t with
  | some th => s.setThread t (th.mark s.now)
  | none => s

/-- One step towards completion at a scope: an access's next step, else the publication of one line that a G = 0 store
performed to (05 R125), unless its home is unreachable (20 R437). -/
def State.settleStep (s : State) (t : Nat) : State :=
  let s := s.markWait t
  match s.thread t with
  | none => s
  | some th =>
    if th.acc.isEmpty then
      match th.wset with
      | [] => s
      | l :: rest =>
        let d := dieOfCore (coreOfKey t)
        if s.unreachable th.part d l.1 then s.setThread t { th with wset := rest ++ [l] }
        else (s.publish th.part d l.1 (th.aset.contains l.1)).setThread t
          { th with wset := rest, aset := th.aset.filter (· != l.1) }
    else s.progress t

/-- A double trap (17 R372): when every earlier access is complete at .s, as TEXIT waits (R375), the thread at the bottom of the
frames ends with STATUS 0x0200 + CAUSE and DBLTRAP is counted; until then the trap is held. -/
def State.doubleTrap (s : State) (t : Nat) (th : Thread) (r : TrapReq) : State :=
  if th.completeAt .s then
    (s.count th.part ctrDbltrap).endThread t th th.baseKind th.baseOwn
      fun f => .poison f (BitVec.ofNat 16 (0x0200 + r.cause.code))
  else (s.setThread t { th with trap := some r }).settleStep t

/-! ## Frame stores and loads (17 R369, R374) -/

/-- Store a line of a trap frame as a plain store of a core (17 R369). -/
def State.frameStore (s : State) (p c va : Nat) (bs : List Byte) : Except Refused State :=
  s.perform0 p (dieOfCore c) va (some c) bs

/-- Load a line of a trap frame at the lookup slice of a core's die (17 R374); a poisoned one is consumed (21 R441). -/
def State.frameLoad (s : State) (p c va : Nat) : Except Refused (State × List Byte) :=
  (s.slice p (dieOfCore c) va false).map fun x => (if x.2.bad then x.1.consumeLine c x.2 else x.1, x.2.data)

/-- The protection check of a frame's page under domain 0 (17 R371, R372)
(log entry 50: DEDUCED, unsafe). -/
def State.frameCheck (s : State) (c p fr : Nat) (write : Bool) : Option State :=
  match plbLookup s c p 0 fr with
  | .ok (some e, s) =>
    if e.rights.atom then none
    else if write then (if e.rights.w && !e.isSealed then some s else none)
    else if e.rights.rd then some s else none
  | _ => none

/-- Whether a trap frame of some lines waits for the interface of the partition to reach RUN (15 R344). -/
def State.frameWaits (s : State) (c p fr n : Nat) : Bool :=
  (match plbLookup s c p 0 fr with
    | .error .waits => true
    | _ => false)
    || (List.range n).any fun i => s.hostWaits p (dieOfCore c) (fr + 64 * i)

/-- A frame that the check refuses: a double trap, or the consumption of poison that the check's refill met (17 R372; 04
R93). -/
def State.frameRefused (s : State) (t : Nat) (th : Thread) (r : TrapReq) (fr : Nat) : State :=
  match plbLookup s (coreOfKey t) th.part 0 fr with
  | .error (.poisoned pa src) => s.consumeFrom (coreOfKey t) pa src
  | _ => s.doubleTrap t th r

/-- Word 0 of the trap record, which is also the cause word of x1 (17 R370). -/
def causeWord (r : TrapReq) (th : Thread) (d : Nat) : Word :=
  let (xc, vc) := th.imageCounts
  BitVec.ofNat 64 (vc * 2 ^ 22 + xc * 2 ^ 16 + bit r.deferred * 2 ^ 13 + d * 2 ^ 12 + th.kind.code * 2 ^ 10
    + bit th.supervisor * 2 ^ 9 + bit r.async * 2 ^ 8 + r.cause.code)

/-- FUTURE of the trap record: the own future of a task thread, the REPLY of a handler, otherwise 0 (17 R370). -/
def recordFuture (th : Thread) : Word :=
  match th.kind with
  | .task | .handler => th.future
  | _ => 0

/-- The trap record (17 R370). -/
def trapRecord (r : TrapReq) (th : Thread) (d : Nat) : List Byte :=
  [causeWord r th d, r.info, r.info2, BitVec.ofNat 64 r.fpc, recordFuture th, BitVec.ofNat 64 th.dom, 0, 0].flatMap
    fun w => leBytes 8 w.toNat

/-- The address of a slot's frame at a depth (17 R369). -/
def frameAddr (tfBase t d : Nat) : Nat := tfBase + t * 4096 + d * 2048

/-- The thread as its handler begins (17 R369). -/
def handlerThread (th : Thread) (r : TrapReq) (d fr stvec : Nat) : Thread :=
  let x := (Vector.replicate 32 0).set 1 (causeWord r th d)
  let x := ((x.set 2 r.info).set 3 r.info2).set 4 (BitVec.ofNat 64 fr)
  let (xc, vc) := th.imageCounts
  { th with
    x := x, taint := 0, v := Vector.replicate 32 0, p := 1, e := Vector.replicate 8 0, rs := Vector.replicate 8 0
    fstat := 0, lact0 := false, lact1 := false, spilld := 0, pc := BitVec.ofNat 56 stvec
    kind := .supervisor, supervisor := true, dom := 0, hdr := .all
    spanOff := 0, spanLen := 0, ownOff := 0, ownLen := 0
    frames := ⟨BitVec.ofNat 64 fr, r.cause, th.kind, th.supervisor, xc, vc, th.dom, th.hdr, th.spanOff, th.spanLen,
      th.ownOff, th.ownLen, th.deferred⟩ :: th.frames
    deferred := [], wait := .none, trap := none, preemptDue := th.preemptDue && r.cause != .preempt }

/-- Lines of a trap frame with an image of some bytes, the record's among them (17 R369, R370). -/
def frameLines (image : Nat) : Nat := (127 + image) / 64

/-- Trap entry (17 R369), when every earlier access of the thread has bound, performed or been refused: the lines of the frame
are stored one by one, and then the handler begins. A line that a check refuses is a double trap, and S2REF counts one that
stage 2 refuses (R372; 20 R429). -/
def State.enterTrap (s : State) (t : Nat) (th : Thread) (r : TrapReq) : State :=
  let d := th.frames.length
  let k := s.part th.part
  let fr := frameAddr k.tfBase t d
  let c := coreOfKey t
  let (xc, vc) := th.imageCounts
  if 2 ≤ d then s.doubleTrap t th r
  else
    let at_ := if r.completed then th.next 4 else { th with pc := BitVec.ofNat 56 r.resume }
    let bytes := trapRecord r th d ++ at_.image xc vc
    let n := r.stored.getD 0
    if frameLines (imageSize xc vc) ≤ n then s.setThread t (handlerThread th r d fr k.stvec)
    else if s.frameWaits c th.part (fr + 64 * n) 1 then s.setThread t { th with trap := some { r with stored := some n } }
    else
      match s.frameCheck c th.part fr true with
      | none => s.frameRefused t th r fr
      | some s1 =>
        match s1.frameStore th.part c (fr + 64 * n) ((bytes.drop (64 * n)).take 64) with
        | .error e => (s.s2refusal th.part (fr + 64 * n) e).doubleTrap t th r
        | .ok s2 =>
          s2.setThread t { th.noteAt (fr + 64 * n) r.fpc with trap := some { r with stored := some (n + 1) } }

/-- Whether an access has come as far as a trap entry waits for: bound, which of an atomic is its completion, performed, refused,
or lost (17 R369; 20 R437). -/
def Access.isSettled (a : Access) : Bool := a.lost || (a.hasPerformed && a.op == .store)

/-- Whether every outstanding access of a thread is (17 R369). -/
def Thread.settled (th : Thread) : Bool := th.acc.all Access.isSettled

/-- Begin a trap (17 R369): entry at once when the thread's earlier accesses have settled; otherwise the trap is held,
the thread issues nothing more, and TRAP_ENTRY follows when they have. -/
def State.beginTrap (s : State) (t : Nat) (th : Thread) (r : TrapReq) : State :=
  if th.settled then
    let (s, th) := s.flushUnit t th
    s.enterTrap t th r
  else s.setThread t { th with trap := some r }

/-- The pending deferred cause of the oldest instruction (17 R367). -/
def oldestDeferred : List Deferred → Option Deferred
  | [] => none
  | d :: ds =>
    match oldestDeferred ds with
    | none => some d
    | some e => if e.access.id < d.access.id then some e else some d

/-- The trap of the oldest pending deferred cause of a thread, before its next instruction (17 R366, R367). A cause that
waits for the thread's accesses stays pending, since one of them may yet be refused and be older. -/
def State.takeDeferred (s : State) (t : Nat) (th : Thread) : State :=
  match oldestDeferred th.deferred with
  | none => s
  | some d =>
    let r : TrapReq := ⟨d.cause, d.info, d.info2, d.access.fpc, th.pc.toNat, true, false, false, none⟩
    if th.settled then
      s.beginTrap t { th with deferred := th.deferred.filter (·.access.id != d.access.id), wait := .none } r
    else s.beginTrap t { th with wait := .none } r

/-- Take a trap (17 R369): a pending deferred cause, of an older instruction, is delivered instead; a synchronous cause recurs
when its instruction is executed again, and a PREEMPT waits for the ERET (17 R367). -/
def State.takeTrap (s : State) (t : Nat) (th : Thread) (r : TrapReq) : State :=
  if th.deferred.isEmpty then s.beginTrap t th r
  else s.takeDeferred t { th with preemptDue := th.preemptDue || r.cause == .preempt }

/-- The next step of a held trap once the thread's accesses have settled: its choice among the causes that are ready, or, when its
entry has begun, the next line of its frame (17 R367, R369). -/
def State.enterHeld (s : State) (t : Nat) (th : Thread) : State :=
  match th.trap with
  | some r =>
    if !th.settled then s
    else if r.stored.isSome then s.enterTrap t { th with trap := none } r
    else s.takeTrap t { th with trap := none } r
  | none => s

/-- Return from a handler (17 R374), when every earlier access is complete at .p: the lines of the image are reloaded one by one,
and then the thread resumes. A deferred cause that the trap left undelivered follows, before an instruction issues (17 R367)
(log entry 56: DEDUCED, safe)
(log entry 78: DEDUCED, unsafe). -/
def State.returnFromTrap (s : State) (t : Nat) (th : Thread) (f : TFrame) (rest : List TFrame) : State :=
  let c := coreOfKey t
  let at_ := f.addr.toNat + 64 + th.reload.length
  let failed : TrapReq := ⟨f.cause, 0, 0, th.pc.toNat, th.pc.toNat, false, false, false, none⟩
  if imageSize f.xcount f.vcount ≤ th.reload.length then
    let th := { th.loadImage th.reload f.xcount f.vcount with
      frames := rest, supervisor := f.ppriv, kind := f.kind, dom := f.dom, hdr := f.hdr
      spanOff := f.spanOff, spanLen := f.spanLen, ownOff := f.ownOff, ownLen := f.ownLen, deferred := f.pending
      held := if th.preemptDue then th.held else s.now, reload := [] }
    (s.setThread t th).takeDeferred t th
  else
    match s.frameCheck c th.part f.addr.toNat false with
    | none => s.frameRefused t { th with reload := [] } failed f.addr.toNat
    | some s1 =>
      match s1.frameLoad th.part c at_ with
      | .error e => (s.s2refusal th.part at_ e).doubleTrap t { th with reload := [] } failed
      | .ok (s2, bs) => s2.setThread t { th with reload := th.reload ++ bs }

/-! ## The issue of an instruction (18 R386, 05 R123) -/

/-- Whether an outstanding access fills a register, latch or tile that an instruction names (05 R123, 17 R366). -/
def Dst.fills (u : Uses) (write : Bool) : Dst → Bool
  | .none => false
  | .x d _ _ _ => u.xr.contains d.val || (write && u.xw.contains d.val)
  | .pair d _ =>
    u.xr.contains d.val || u.xr.contains (d.val + 1)
      || (write && (u.xw.contains d.val || u.xw.contains (d.val + 1)))
  | .v d _ => u.vr.contains d.val || (write && u.vw.contains d.val)
  | .latch b _ => if b then u.latchB else u.latchA
  | .unit _ => u.tile.isSome
  | .future _ => false

/-- Whether an instruction overwrites data that an access still needs (20 R426). -/
def Access.dataUsed (a : Access) (u : Uses) : Bool :=
  a.srcX.any u.xw.contains || a.srcV.any u.vw.contains
    || (a.srcE && (u.ew.contains 0 || (a.size == 16 && u.ew.contains 1)))
    || (bitsOf a.desc 63 60 == 6 && u.tileW && u.tile == some (bitsOf a.desc 45 41))

/-- Whether a refused access fills what an instruction reads or names: for a ZLD its own tile (17 R366). -/
def Access.fillNamed (a : Access) (u : Uses) : Bool :=
  match a.dst with
  | .unit _ => u.tile == some (bitsOf a.desc 45 41)
  | d => d.fills u false

/-- Whether an outstanding access is to translated memory and could still take a deferred cause, ACKLOST once it has performed (20
R426, R437). -/
def Access.couldRefuse (a : Access) : Bool := a.place == .line || a.place == .atom

/-- An instruction waits while a register it names is the destination of an outstanding access, while it would overwrite
data such an access still needs, and, when it makes an access itself, while an acquire is unbound (05 R123, R126; 20
R426). -/
def Thread.hazard (th : Thread) (u : Uses) : Bool :=
  th.acc.any fun a =>
    a.dst.fills u true || (a.couldRefuse && a.dataUsed u) || (u.mem && (a.ord == .acq || a.ord == .ar))

/-- Whether the instruction delivers the pending deferred causes (17 R366, 20 R426): it reads a refused access's
destination, overwrites its data, its ordering rule waits for accesses, or it makes an access that a refused acquire
precedes (05 R126)
(log entry 79: DEDUCED, unsafe). -/
def Thread.delivers (th : Thread) (u : Uses) : Bool :=
  !th.deferred.isEmpty
    && ((match u.drain with | none => false | some .t => false | some _ => true)
      || th.deferred.any fun d => d.access.fillNamed u || d.access.dataUsed u
        || (u.mem && (d.access.ord == .acq || d.access.ord == .ar)))

/-- The least element of a list that satisfies a test. -/
def leastWhere (l : List Nat) (p : Nat → Bool) : Option Nat :=
  l.foldl (fun m n => if p n then (match m with | none => some n | some k => some (Nat.min k n)) else m) none

/-- INFO2 of RESOURCE (18 R388). -/
def resourceInfo (kind which : Nat) : Word := BitVec.ofNat 64 (kind * 2 ^ 60 + which % 2 ^ 56)

/-- The header check of every case but the CLS span (07 R173), in the order of 18 R388: INFO2 of the first failure. -/
def resourceCheck (th : Thread) (u : Uses) : Option Word :=
  let gang := th.kind == .gang && !th.supervisor
  let xs := if th.supervisor then none else leastWhere (u.xr ++ u.xw) fun n => decide (th.hdr.xcount ≤ n)
  let vs := if th.supervisor then none else leastWhere (u.vr ++ u.vw) fun n => decide (th.hdr.vcount ≤ n)
  let hs := if th.supervisor then none else leastWhere u.handles fun n => !th.hdr.rings.getLsbD n
  match xs with
  | some n => some (resourceInfo 1 n)
  | none =>
  match vs with
  | some n => some (resourceInfo 2 n)
  | none =>
  match hs with
  | some n => some (resourceInfo 3 n)
  | none =>
  match u.barrier.filter fun n => !gang || !th.hdr.barriers.getLsbD n with
  | some n => some (resourceInfo 4 n)
  | none =>
  match u.sem.filter fun _ => !gang with
  | some n => some (resourceInfo 7 n)
  | none => if u.torus && !(gang && th.hdr.torus) then some (resourceInfo 6 0) else none

/-- Issue one instruction of the thread in the current slot: a false guard only advances it (00 R14); otherwise register
hazards and its ordering rule are waited for, a deferred cause it delivers is taken, and then come ILLEGAL, RESOURCE, PRIV, MXOWNER
and the instruction's own body (18 R386). `skip` is the effect under a false guard. -/
def issueSkip (i : Instr) (s : State) (skip : State → Thread → State) (body : State → Thread → Res) : Out :=
  match s.thread s.cur with
  | none => .next s
  | some th =>
    let c := coreOfKey s.cur
    let u := usesOf i s.pkg.node c th
    let word := BitVec.ofNat 64 i.word
    let at_ (cause : Cause) (info info2 : Word) : Out :=
      .next (s.takeTrap s.cur th ⟨cause, info, info2, th.pc.toNat, th.pc.toNat, false, false, false, none⟩)
    if !th.guardTrue i.guard then .next (skip s th)
    else if th.hazard u then .next ((s.markWait s.cur).progress s.cur)
    else if !(u.drain.map th.completeAt).getD true then .next (s.settleStep s.cur)
    else if th.delivers u then .next (s.takeDeferred s.cur th)
    else if u.unassigned then at_ .illegal word 0
    else
      match resourceCheck th u with
      | some info2 => at_ .resource word info2
      | none =>
        if u.priv && !th.supervisor then at_ .priv word 0
        else if u.mx && s.cur % 4 != (s.core c).mxNow then
          at_ .mxowner (BitVec.ofNat 64 (s.core c).mxOwn) 0
        else
          match body s th with
          | .done s => .next s
          | .trap cause info info2 => at_ cause info info2
          | .trapIn s1 cause info info2 =>
            if !th.deferred.isEmpty then .next (s.takeDeferred s.cur th)
            else if !th.settled then .next (s.settleStep s.cur)
            else .next (s1.takeTrap s.cur th ⟨cause, info, info2, th.pc.toNat, th.pc.toNat, false, false, false, none⟩)
          | .trapAfter cause info info2 =>
            .next (s.takeTrap s.cur th ⟨cause, info, info2, th.pc.toNat, th.pc.toNat, false, false, true, none⟩)
          | .settle => .next (s.settleStep s.cur)
          | .deliver => .next (s.takeDeferred s.cur th)

/-- Issue an instruction whose false guard has no effect but the advance of PC. -/
def issue (i : Instr) (s : State) (body : State → Thread → Res) : Out :=
  issueSkip i s (fun s th => s.setThread s.cur (th.next i.len)) body

/-- A body that only changes the thread, and completes at the next instruction. -/
def thenNext (i : Instr) (f : Thread → Thread) (s : State) (th : Thread) : Res :=
  .done (s.setThread s.cur ((f th).next i.len))

/-! ## Checks of an access (09 R218, 18 R386 rows 6 to 9, 20 R423, R424) -/

/-- The kinds of access that the map and attribute checks tell apart. -/
inductive Form where
  | load | store | atomic | casq | vload | vstore | waitv | bulkRead | bulkWrite
  deriving DecidableEq, Repr

/-- A checked access: its place, its address after an own-node fabric-global address has become local, and the
attributes of its region. -/
structure Checked where
  place : Place
  va : Nat
  atom : Bool
  homerun : Bool
  isSealed : Bool
  deriving DecidableEq, Repr

/-- Whether a form writes memory. -/
def Form.writes : Form → Bool
  | .store | .atomic | .casq | .vstore | .bulkWrite => true
  | _ => false

/-- Whether a row of the private window admits a form (18 R393, 09 R220, 11 R280). -/
def Form.admitsRow : Form → WindowRow → Bool
  | .load, _ => true
  | .store, _ => true
  | .atomic, r => r == .cls || r == .sem
  | .casq, r => r == .cls || r == .sem
  | .vload, r => r == .cls || r == .latchA || r == .latchB
  | .vstore, r => r == .cls || r == .latchA || r == .latchB
  | _, r => r == .cls

/-- The access descriptor of 20 R423 without the place of refusal. -/
def descriptor (op log2 g ord scope z file reg fmt gran reg2 : Nat) : Nat :=
  op * 2 ^ 60 + log2 * 2 ^ 57 + g * 2 ^ 56 + ord * 2 ^ 53 + scope * 2 ^ 50 + z * 2 ^ 49 + file * 2 ^ 46 + reg * 2 ^ 41
    + fmt * 2 ^ 36 + gran * 2 ^ 30 + reg2 * 2 ^ 9

/-- A check that failed: its cause and information words. -/
structure Failed where
  cause : Cause
  info : Word
  info2 : Word
  deriving DecidableEq, Repr

/-- Why an address outside translated memory gives no instruction: it is in no row of the map, beyond its row of the private
window, or in a place that admits no fetch (18 R390; 20 R424). -/
def unfetchable (share va : Nat) : Refused :=
  match nameOf va with
  | .nothing => refuse 0 1
  | .window off => if (windowRow share off 2).isNone then refuse 0 2 else refuse 0 3
  | _ => refuse 0 3

/-- A PROT with a descriptor. -/
def protAt (va desc place reason : Nat) : Failed :=
  ⟨.prot, BitVec.ofNat 64 va, BitVec.ofNat 64 (desc + (refuse place reason).bits)⟩

/-- Why the checks of an access end it: a trap, with the state in which a refill has entered its region in the PLB, or the
consumption of poison that a refill met (04 R93; 21 R441); or why they wait (15 R344). -/
inductive CheckFail where
  | trap (s : State) (f : Failed)
  | poison (s : State)
  | waits
  deriving DecidableEq, Repr

/-- What an instruction whose checks fail answers. -/
def CheckFail.res : CheckFail → Res
  | .trap s f => .trapIn s f.cause f.info f.info2
  | .poison s => .done s
  | .waits => .settle

/-- A PLB lookup that fails for an access of a core at an address. -/
def PlbFail.check (e : PlbFail) (s : State) (c info desc : Nat) : CheckFail :=
  match e with
  | .refused r => .trap s ⟨.prot, BitVec.ofNat 64 info, BitVec.ofNat 64 (desc + r.bits)⟩
  | .poisoned pa src => .poison (s.consumeFrom c pa src)
  | .waits => .waits

/-- The protection and attribute checks of translated memory (04 R93). -/
def checkTranslated (s : State) (c : Nat) (th : Thread) (info va desc : Nat) (form : Form) :
    Except CheckFail (State × Checked) :=
  match plbLookup s c th.part th.dom va with
  | .error e => .error (e.check s c info desc)
  | .ok (none, _) => .error (.trap s (protAt info desc 1 1))
  | .ok (some e, s) =>
    let need := if form.writes then e.rights.w else e.rights.rd
    if !need then .error (.trap s (protAt info desc 1 2))
    else if form.writes && e.isSealed then .error (.trap s ⟨.sealwr, BitVec.ofNat 64 info, 0⟩)
    else if (form == .bulkRead || form == .bulkWrite) && e.rights.atom then
      .error (.trap s ⟨.atomattr, BitVec.ofNat 64 info, 0⟩)
    else if form == .casq && !e.rights.atom then .error (.trap s ⟨.atomattr, BitVec.ofNat 64 info, 0⟩)
    else .ok (s, ⟨if e.rights.atom then .atom else .line, va, e.rights.atom, e.rights.homerun, e.isSealed⟩)

/-- The checks of one access, in the order of R218: CLS span, alignment, address map and protection, attributes. -/
def checkAccess (s : State) (t : Nat) (th : Thread) (i : Instr) (va size align desc : Nat) (form : Form) :
    Except CheckFail (State × Checked) :=
  let c := coreOfKey t
  let off := va - windowBase
  if inClsRange va && !th.supervisor
      && !(decide (th.spanOff * 256 ≤ off) && decide (off < (th.spanOff + th.spanLen) * 256)) then
    .error (.trap s ⟨.resource, BitVec.ofNat 64 i.word, resourceInfo 5 va⟩)
  else if va % align ≠ 0 then .error (.trap s ⟨.align, BitVec.ofNat 64 va, 0⟩)
  else
    match nameOf va with
    | .nothing => .error (.trap s (protAt va desc 0 1))
    | .fabric node off =>
      match form with
      | .vload | .vstore | .bulkRead | .bulkWrite => .error (.trap s ⟨.remote, BitVec.ofNat 64 va, 0⟩)
      | .waitv => .ok (s, ⟨.remote, va, false, false, false⟩)
      | _ =>
        if node = s.pkg.node then checkTranslated s c th va off desc form
        else .ok (s, ⟨.remote, va, false, false, false⟩)
    | .tile cl toff =>
      if s.ownsCluster th.part cl then .ok (s, ⟨.single (tilePlace cl toff), va, false, false, false⟩)
      else .error (.trap s (protAt va desc 2 1))
    | .window woff =>
      match windowRow (s.core c).clsNow woff size with
      | none => .error (.trap s (protAt va desc 0 2))
      | some r =>
        if form.admitsRow r then .ok (s, ⟨.single (windowPlace c woff), va, false, false, false⟩)
        else .error (.trap s (protAt va desc 0 3))
    | .translated => checkTranslated s c th va va desc form

/-- A later access whose bytes overlap a translated access that could still be refused waits for it; one that overlaps a
refused access delivers its cause (20 R426). -/
def Thread.overlapWait (th : Thread) (va size : Nat) : Bool :=
  th.acc.any fun a => a.couldRefuse && decide (a.va < va + size) && decide (va < a.va + a.size)

/-- Whether an address range overlaps a refused access of the thread (20 R426). -/
def Thread.overlapDeferred (th : Thread) (va size : Nat) : Bool :=
  th.deferred.any fun d => decide (d.access.va < va + size) && decide (va < d.access.va + d.access.size)

/-- Append an access to a thread's list. -/
def Thread.addAccess (th : Thread) (a : Access) : Thread :=
  { th with acc := th.acc ++ [{ a with id := th.nextId }], nextId := th.nextId + 1 }

end Sys2Proof.Machine
end

