-- ==== Sys2Proof/Machine/Park.lean ====
section
/-!
DEFINITION. How a thread leaves or holds its slot: waiting and parking (spec/02 R32, R49, spec/03 R78, spec/19 R402) and
home-run migration (spec/03 R81).
-/

namespace Sys2Proof.Machine

/-! ## The park area and its spill area (03 R78) -/

/-- The 64-byte units that a parked thread's image takes. -/
def Thread.parkUnits (th : Thread) : Nat := (imageSize th.hdr.xcount th.hdr.vcount + 63) / 64

/-- The cluster a waiter belongs to. -/
def Waiter.cluster : Waiter → Option Nat
  | .slot t => some (clusterOfCore (coreOfKey t))
  | .parked cl _ => some cl
  | .node _ _ | .code _ => none

/-- The waiter records that a cluster keeps for other clusters and nodes in its park area, a unit each (02 R47; log entry 13:
DESIGN CHOICE, unsafe). -/
def Cluster.records (k : Cluster) (cl : Nat) : Nat :=
  (k.futures.map fun e => (e.2.waiters.filter fun w => w.1.cluster != some cl).length).foldl (· + ·) 0

/-- Units that images take, of the park area or of the spill area. -/
def Cluster.taken (k : Cluster) (spilled : Bool) : List Nat :=
  (k.parkAt.filter fun e => k.parkSpilled.contains e.1 == spilled).flatMap (·.2)

/-- Units of the park area. -/
def Cluster.parkTotal (k : Cluster) : Nat := k.parkArea * 32

/-- Units of the park spill area. -/
def Cluster.spillTotal (k : Cluster) : Nat := k.pspillSize * 64

/-- Whether the park area of a cluster can take some units more. -/
def Cluster.parkFits (k : Cluster) (cl need : Nat) : Bool :=
  decide ((k.taken false).length + k.records cl + need ≤ k.parkTotal)

/-- The lowest `need` numbers from `u`, of `fuel`, that are not taken (log entry 13: DESIGN CHOICE, unsafe). -/
def freeUnits (taken : List Nat) : Nat → Nat → Nat → List Nat
  | 0, _, _ => []
  | fuel + 1, need, u =>
    if need = 0 then []
    else if taken.contains u then freeUnits taken fuel need (u + 1)
    else u :: freeUnits taken fuel (need - 1) (u + 1)

/-- The place of a unit of a cluster's park area, which follows the ring area in its tile store (04 R98). -/
def Cluster.parkPlace (k : Cluster) (cl u : Nat) : Nat := tilePlace cl (k.ringArea * 2048 + 64 * u)

/-- The partition that owns a cluster's granule. -/
def State.clusterPart (s : State) (cl : Nat) : Nat := (s.ownerOfGranule (granuleOfCluster cl)).getD 0

/-- Write the units of an image to the park spill area under the partition's translation: none when one is refused, or when a
granule of the image is poisoned, which a move would hide (21 R441). -/
def State.spillUnits (s : State) (cl : Nat) : List (Nat × Nat) → Option State
  | [] => some s
  | (a, b) :: rest =>
    let k := s.cluster cl
    let pa := k.parkPlace cl a
    if s.isPoisoned pa then none
    else
      match s.serviceStore (s.clusterPart cl) (dieOfCluster cl) (k.pspillBase + 64 * b) (s.load pa 64) with
      | .ok s => s.spillUnits cl rest
      | .error _ => none

/-- Move the image of a parked task to the park spill area, where there is room for it (03 R78). -/
def State.spillImage (s : State) (cl n : Nat) : Option State :=
  let k := s.cluster cl
  match k.parkAt.find n with
  | none => none
  | some us =>
    let at_ := freeUnits (k.taken true) k.spillTotal us.length 0
    if k.parkSpilled.contains n || decide (at_.length < us.length) then none
    else
      (s.spillUnits cl (us.zip at_)).map fun s =>
        let k := s.cluster cl
        s.setCluster cl { k with parkSpilled := k.parkSpilled ++ [n], parkAt := k.parkAt.put n at_ }

/-- Make room for `need` units: the longest-parked images go to the park spill area until they fit (03 R78); none when
neither area can take them (19 R402). -/
def State.makeRoom (s : State) (cl need : Nat) : List Nat → Option State
  | [] => if (s.cluster cl).parkFits cl need then some s else none
  | n :: ns =>
    if (s.cluster cl).parkFits cl need then some s
    else
      match s.spillImage cl n with
      | some s => s.makeRoom cl need ns
      | none => s.makeRoom cl need ns

/-- Room for a context in a cluster's park area, or none (03 R78, 19 R402). -/
def State.parkRoom (s : State) (cl : Nat) (th : Thread) : Option State :=
  s.makeRoom cl th.parkUnits (s.cluster cl).parkOrder

/-- Enter a context into the park area of a cluster as that of its task `n`: its image goes to the lowest free units, and
what no image holds stays with the task. -/
def State.parkAs (s : State) (cl n : Nat) (th : Thread) (w : Wait) : State :=
  let k := s.cluster cl
  let us := freeUnits (k.taken false) k.parkTotal th.parkUnits 0
  let bs := th.image th.hdr.xcount th.hdr.vcount
  let s := (us.mapIdx fun i u => (i, u)).foldl
    (fun s x => s.storePlace (k.parkPlace cl x.2) ((bs.drop (64 * x.1)).take 64)) s
  let k := s.cluster cl
  s.setCluster cl { k with
    parked := k.parked.put n { th with wait := w, ahead := [] }
    parkOrder := k.parkOrder.filter (· != n) ++ [n], parkAt := k.parkAt.put n us }

/-- Park the task thread of a slot with what it waits for (03 R78). Without room it waits in its slot, and PARKHOLD is
counted (19 R402). -/
def State.park (s : State) (t : Nat) (th : Thread) (w : Wait) : State :=
  let (s, th) := s.flushUnit t th
  match th.task with
  | some (cl, n) =>
    match s.parkRoom cl th with
    | some s =>
      let s := (s.dropThread t).parkAs cl n th w
      let k := s.cluster cl
      s.setCluster cl { k with tasks := match k.tasks.find n with
        | some tk => k.tasks.put n { tk with state := .parked }
        | none => k.tasks }
    | none => (s.setThread t { th with wait := w }).count th.part ctrParkhold
  | none => s.setThread t { th with wait := w }

/-- The lines of a spilled image, read back at the cluster's die (03 R78): none when a read is refused. -/
def State.refetchImage (s : State) (cl : Nat) : List Nat → Option (State × List Byte × Option Nat)
  | [] => some (s, [], none)
  | u :: us =>
    let va := (s.cluster cl).pspillBase + 64 * u
    match s.serviceLine (s.clusterPart cl) (dieOfCluster cl) va 4 with
    | .error _ => none
    | .ok (s, bs, bad) =>
      let pa := ((readPage s (s.clusterPart cl) (dieOfCluster cl) va).toOption.map (·.place va)).getD 0
      (s.refetchImage cl us).map fun x => (x.1, bs ++ x.2.1, if bad then some pa else x.2.2)

/-- The image of a parked task, and the place of a granule of it that is poisoned: none while the reads of a spilled one are refused
(log entry 13: DESIGN CHOICE, unsafe). -/
def State.parkedImage (s : State) (cl n : Nat) : Option (State × List Byte × Option Nat) :=
  let k := s.cluster cl
  let us := (k.parkAt.find n).getD []
  if k.parkSpilled.contains n then s.refetchImage cl us
  else
    some (s, us.flatMap fun u => s.load (k.parkPlace cl u) 64, (us.map (k.parkPlace cl)).find? s.isPoisoned)

/-- A parked task leaves the areas. -/
def Cluster.unpark (k : Cluster) (n : Nat) : Cluster :=
  { k with
    parked := k.parked.erase n, parkOrder := k.parkOrder.filter (· != n), parkSpilled := k.parkSpilled.filter (· != n)
    parkAt := k.parkAt.erase n }

/-- Whether the read of a spilled image waits for the interface of the partition to reach RUN (15 R344). -/
def State.imageWaits (s : State) (cl n : Nat) : Bool :=
  let k := s.cluster cl
  k.parkSpilled.contains n
    && ((k.parkAt.find n).getD []).any fun u => s.hostWaits (s.clusterPart cl) (dieOfCluster cl) (k.pspillBase + 64 * u)

/-- Whether a wait parks the thread: a task thread at U (02 R32). -/
def Thread.parks (th : Thread) : Bool := th.kind == .task && !th.supervisor && th.task.isSome

/-- Make the thread in the current slot wait. A task thread parks, which its pending deferred cause forestalls (17 R366)
and which is a release at .k (05 R129). -/
def blockRes (s : State) (th : Thread) (w : Wait) : Res :=
  if th.parks then
    if !th.deferred.isEmpty then .deliver
    else if !th.acc.isEmpty then .settle
    else .done (s.park s.cur th w)
  else .done (s.setThread s.cur { th with wait := w })

/-- How a recorded wait names the thread of a slot, in the slot or parked. -/
def Thread.waiter (th : Thread) (t : Nat) : Waiter :=
  match th.parks, th.task with
  | true, some (cl, n) => .parked cl n
  | _, _ => .slot t

/-- Whether a wait is for an answer. -/
def Wait.forAnswer : Wait → Bool
  | .touch _ | .reply _ | .home => true
  | _ => false

/-- End the wait of a waiter with what it receives (02 R49); a task thread held in its slot for want of park room receives
it there. -/
def State.wake (s : State) (q : Waiter) (w : Wait) : State :=
  match q with
  | .slot t => s.wakeSlot t w
  | .parked cl n =>
    match (s.cluster cl).parked.find n with
    | some _ => s.wakeParked cl n w
    | none =>
      s.threads.foldl (fun s e => if e.2.task = some (cl, n) ∧ e.2.wait.forAnswer then s.wakeSlot e.1 w else s) s
  | .code c =>
    match (s.core c).code with
    | some run => s.setCore c { s.core c with code := some { run with regs := { run.regs with wait := w } } }
    | none => s
  | .node _ _ => s

/-- A blocking access of an RLD or RST to a home in the package (12 R302, R303): the thread waits, and a step of its home
performs the access. -/
def homeRes (s : State) (th : Thread) (a : Access) : Res :=
  match blockRes s { th with nextId := th.nextId + 1 } .home with
  | .done s => .done { s with homeOps := s.homeOps ++ [⟨coreOfKey s.cur, th.part, th.waiter s.cur, { a with id := th.nextId }⟩] }
  | r => r

/-- A deferred cause joins those of a thread that waits with an RLD or RST, in its slot or parked; the instruction is behind the
thread, which goes on: a parked one from its image, at its dispatch (17 R366). -/
def State.deferFor (s : State) (q : Waiter) (d : Deferred) : State :=
  let join (th : Thread) : Thread := { th with deferred := th.deferred ++ [d] }
  let add (th : Thread) : Thread := (join th).next 4
  match q with
  | .slot t =>
    match s.thread t with
    | some th => s.setThread t (add th)
    | none => s
  | .parked cl n =>
    match (s.cluster cl).parked.find n with
    | some th => s.setCluster cl { s.cluster cl with parked := (s.cluster cl).parked.put n (join th) }
    | none => s.threads.foldl (fun s e => if e.2.task = some (cl, n) then s.setThread e.1 (add e.2) else s) s
  | .node _ _ | .code _ => s

/-! ## Home-run migration (03 R81) -/

/-- Whether a task thread migrates to the home of a line before an access to a home-run region: the compute die that homes
it, another than its own
(log entry 58: DEDUCED, unsafe). -/
def State.migratesTo (s : State) (th : Thread) (va : Nat) (homerun write : Bool) : Option Nat :=
  if homerun && th.parks then
    match translate s th.part (dieOfCore (coreOfKey s.cur)) (lineOf va) write with
    | .ok g =>
      let d := homeDie (g.place (lineOf va))
      if d < 6 ∧ d ≠ dieOfCore (coreOfKey s.cur) then some d else none
    | .error _ => none
  else none

/-- Leave for another die: every earlier access is performed and published, the slot and the CLS scratch are freed, and the
context travels, with SPILLD 0 since the spilled return addresses stay behind (03 R81, 07 R167). -/
def migrateRes (s : State) (th : Thread) (die : Nat) : Res :=
  if !th.deferred.isEmpty then .deliver
  else if !th.completeAt .p then .settle
  else
    let (s, th) := s.flushUnit s.cur th
    let s := s.dropThread s.cur
    let s := if th.ownLen = 0 then s else s.freeCls (coreOfKey s.cur) th.ownOff th.ownLen
    .done { s with transit := s.transit ++ [⟨die, { th with ahead := [], wait := .none, spilld := 0 }⟩] }

end Sys2Proof.Machine
end

