-- ==== Sys2Proof/Machine/Fabric.lean ====
section
/-!
DEFINITION. Packets that leave the package (spec/15 R328 to R330, R341) and the requests that wait for a reply.
-/

namespace Sys2Proof.Machine

/-- A free reply tag of a core, of its 32 (15 R330). -/
def State.freeTag (s : State) (c : Nat) : Option Nat :=
  (List.range 32).find? fun n => !s.outstanding.any fun o => o.core == c && o.tag == n

/-! ## The injection queue (15 R337, R341) -/

/-- Records of the injection queue in use. -/
def Core.injUsed (k : Core) : Nat := (k.inj.map (·.size)).foldl (· + ·) 0

/-- A record enters the injection queue of a core, with the STEP tag of this moment; INJ counts one for another node (15 R341,
16 R358). -/
def State.inject (s : State) (c p : Nat) (r : Record) : State :=
  let r := { r with step := s.stepTag p }
  let s := if endNode r.dest = s.pkg.node ∨ r.command.isSome then s else s.countInjected p 1
  s.setCore c { s.core c with inj := (s.core c).inj ++ [r] }

/-- The 64 bytes of a request in its injection record: its header and its payload (15 R329, R337). -/
def requestWords (k : Packet) : List Word :=
  let bs := packetHeader k ++ k.payload ++ List.replicate (32 - k.payload.length) 0
  (List.range 8).map fun i => BitVec.ofNat 64 (leNat ((bs.drop (8 * i)).take 8))

/-- Send a request by address to another node: the LOCAL of its DEST is not stated and is a free value (log entry 16: DESIGN
CHOICE, safe). A read or a write goes by way of a record of the injection queue, an atomic, which fills none, at once (15 R337).
None while all 32 tags of the core await a reply, or the queue that it needs is full. -/
def State.request (s : State) (c p node ptype len arg op : Nat) (payload : List Byte) (waiter : Option Waiter)
    (future : Word) : Option (State × Nat) :=
  match s.freeTag c with
  | none => none
  | some tag =>
    if ptype ≠ 0x07 ∧ 16 < (s.core c).injUsed + 1 then none
    else
      let (w, s) := s.takeFree
      let dest := endpoint node (w.toNat % 2 ^ 15)
      let k := { s.packet p ptype (endpoint s.pkg.node c) dest 1 0 0 len tag arg payload with op := op }
      let s := if ptype = 0x07 then s.emit k else s.inject c p ⟨requestWords k, 1, dest, true, none, false, tag, 0, some k⟩
      some ({ s with outstanding := s.outstanding ++ [⟨c, tag, p, ptype, waiter, future, false, false⟩] }, tag)

/-- A blocking request of the thread in the current slot to another node (12 R302, R303): the thread waits for the reply.
Without a free tag or a free record the instruction is tried again
(log entry 65: DEDUCED, safe). -/
def remoteRes (s : State) (th : Thread) (va ptype len op : Nat) (payload : List Byte) : Res :=
  if th.parks && !th.deferred.isEmpty then .deliver
  else if th.parks && !th.acc.isEmpty then .settle
  else
    match s.request (coreOfKey s.cur) th.part (bitsOf va 62 46) ptype len va op payload (some (th.waiter s.cur)) 0 with
    | none => .settle
    | some (s, tag) => blockRes s th (.reply tag)

/-! ## The gateways' receive buffers (15 R333, R335) -/

/-- A packet without the operation that its header has no place for (log entry 18: DESIGN CHOICE, safe). -/
def plainPacket (k : Packet) : Packet := { k with op := 0 }

/-- Whether a packet must not overtake another that arrived at the same port before it: class 0 keeps the order of 02 R58,
class 3 that between two endpoints (15 R332). -/
def packetFollows (k j : Packet) : Bool :=
  k.cls == j.cls && k.src == j.src && k.dest == j.dest
    && (k.cls == 3 || (k.cls == 0 && k.prio == j.prio && k.route == j.route))

/-- Whether the packets that arrived at a port hold one that may be taken now. -/
def gateHas (k : Packet) : List Arrived → Bool
  | [] => false
  | a :: rest => a.packet == plainPacket k || (!packetFollows k a.packet && gateHas k rest)

/-- The port at which a packet waits to be taken. -/
def State.gateOf (s : State) (k : Packet) : Option Nat := (s.pkg.ports.find? fun e => gateHas k e.2.gate).map (·.1)

/-- A port's receive side once a packet has moved on: the slots of the flits in which no packet is left are free (15 R335). -/
def Port.moveOn (k : Port) (q : Packet) : Port :=
  match k.gate.find? (·.packet == plainPacket q) with
  | none => k
  | some a =>
    let gate := k.gate.erase a
    let used := gate.flatMap (·.flits) ++ k.streams.flatMap fun e => e.2.2
    { k with gate := gate, held := k.held.filter fun f => used.contains f.id }

/-- A packet leaves the gateway at which it waits. -/
def State.leaveGate (s : State) (k : Packet) : State :=
  match s.gateOf k with
  | some m =>
    match s.pkg.ports.find m with
    | some port => { s with pkg := { s.pkg with ports := s.pkg.ports.put m (port.moveOn k) } }
    | none => s
  | none => s

/-! ## Packets that arrive (15 R329, R341; 16 R354, R358; 22 R461, R463) -/

/-- The error reply to a packet of another node (22 R461): its SRC is the request's DEST. -/
def State.errorReply (s : State) (p dest src rtype tag cls code arg : Nat) : State :=
  s.emit (s.packet p 0x20 dest src cls 0 0 8 tag (code * 2 ^ 56 + rtype * 2 ^ 48) (leBytes 8 arg))

/-- Whether a packet is a request of class 0 or 1, which a refusal answers. -/
def packetRequests (k : Packet) : Bool := decide (k.cls < 2) && [1, 2, 3, 5, 7, 9, 0x10, 0x12].contains k.ptype

/-- A packet is refused: its requester has an error reply. -/
def State.refusePacket (s : State) (p : Nat) (k : Packet) (code : Nat) : State :=
  if packetRequests k then s.errorReply p k.dest k.src k.ptype k.tag k.cls code k.arg else s

/-- Whether a step tag is later than a STEPDONE (15 R341). -/
def tagLater (t done : Nat) : Bool :=
  let d := (t + 65536 - done % 65536) % 65536
  decide (1 ≤ d) && decide (d ≤ 32767)

/-- What the channel log takes of a packet: its header and its payload padded to 32 bytes (16 R358). -/
def packetLog (k : Packet) : List Byte :=
  packetHeader k ++ k.payload ++ List.replicate ((32 - k.payload.length % 32) % 32) 0

/-- A partition's memory is contained when a memory group of it is (21 R450). -/
def State.contained (s : State) (p : Nat) : Bool := (s.part p).granules.any s.pkg.failedGroups.contains

/-- The nodes of a group's members in rank order, as its descriptor at an address gives them (15 R340). -/
def State.groupNodes (s : State) (p va : Nat) : Option (List Nat) :=
  match readHomeWord s p controlDie va, readHomeWord s p controlDie (va + 16) with
  | .ok w0, .ok w2 =>
    (List.range (bitsOf w0 63 46)).mapM fun i =>
      let at_ := bitsOf w2 55 0 + 4 * i
      match readHomeWord s p controlDie (at_ / 8 * 8) with
      | .ok w => some (w / 2 ^ (32 * (at_ / 4 % 2)) % 2 ^ 17)
      | .error _ => none
  | _, _ => none

/-- The number by which packets name a group (log entry 101: DESIGN CHOICE, safe). -/
def groupNumber (nodes : List Nat) : Nat := Config.groupId nodes % 2 ^ 32

/-- Whether a packet is collective data of a partition's tagging group (16 R354). -/
def State.ofTagging (s : State) (p : Nat) (k : Packet) : Bool :=
  k.ptype == 0x10 && (((s.part p).tagging.bind (s.groupNodes p)).map groupNumber == some (k.arg / 2 ^ 32))

/-- Whether a packet waits for the pending cut of a partition (16 R354). -/
def State.holdsPacket (s : State) (p : Nat) (k : Packet) : Bool :=
  let q := (s.part p).proof
  q.armed.isSome && !q.taken && decide (k.cls < 2) && !s.ofTagging p k && tagLater k.step (s.stepTag p)

/-- Whether a tag is later than S − 1 (16 R358). -/
def Proof.isLate (q : Proof) (tag : Nat) : Bool := tagLater tag (q.step + 65535)

/-- Count an arriving packet, and log one that arrives after a cut and belongs before it (16 R358). -/
def State.arriving (s : State) (p : Nat) (k : Packet) : State :=
  if !packetCounted k then s
  else
    let part := s.part p
    let q := part.proof
    let isLate := q.armed.isSome && q.isLate k.step
    let log := if q.taken && q.logOpen && !isLate && [1, 2, 5, 7].contains k.ptype then q.log ++ packetLog k else q.log
    let early := if tagLater k.step (s.stepTag p + 65535) then
        q.early.put k.step ((q.early.find k.step).getD 0 + 1)
      else q.early
    s.setPart p { part with proof := { q with
      arrived := (q.arrived + 1) % 2 ^ 64, late := (q.late + bit isLate) % 2 ^ 64, early := early, log := log } }

/-- Whether a packet that a cut of its partition held, and that still waits for its target, goes before it (16 R354; 15 R332). -/
def State.heldFirst (s : State) (k : Packet) : Bool :=
  match s.partOfJob k.job with
  | none => false
  | some p =>
    let q := (s.part p).proof
    (q.armed.isNone || q.taken) && q.held.any (packetFollows k) && !s.ofTagging p k

/-- What becomes of a packet that waits at a gateway of this node; any other has no effect. -/
def State.fromGate (s : State) (k : Packet) (f : State → State) : State :=
  if (s.gateOf k).isSome && !s.heldFirst k then f (s.leaveGate k) else s

/-- Whether a packet is a fabric-global access, of whose refusals its target keeps count (20 R439). -/
def packetAccesses (k : Packet) : Bool := k.ptype == 3 || k.ptype == 5 || k.ptype == 7

/-- A packet at this node's gateway: refused, dropped, held for a cut, or taken by its partition (20 R439; 22 R461, R463). -/
def State.admitPacket (s : State) (k : Packet) (f : State → Nat → State) : State :=
  if endNode k.dest ≠ s.pkg.node then s
  else
    match s.partOfJob k.job with
    | none =>
      if packetRequests k then
        s.emit ⟨0x20, k.src, k.dest, k.job, k.pgen, k.cls, 0, 0, 0, 8, k.tag, 2 ^ 56 + k.ptype * 2 ^ 48, 0, leBytes 8 k.arg⟩
      else s
    | some p =>
      let refuse (s : State) (code : Nat) : State :=
        (if packetAccesses k then s.count p ctrRemref else s).refusePacket p k code
      if k.pgen ≠ (s.part p).pgen then refuse (s.count p ctrPgendrop) 0x08
      else if (s.part p).ending then refuse s 0x09
      else if s.contained p && packetAccesses k then refuse s 0x09
      else if s.holdsPacket p k then
        let part := s.part p
        s.setPart p { part with proof := { part.proof with held := part.proof.held ++ [k] } }
      else f (s.arriving p k) p

end Sys2Proof.Machine
end

