-- ==== Sys2Proof/Machine/Issue.lean ====
section
/-!
DEFINITION. The issue of loads, stores and atomics: the shared path of every addressed instruction (spec/09 R218 to R227,
R240), with the addresses of ring slots (spec/04 R100).
-/

namespace Sys2Proof.Machine

/-- The address an access reaches: an own-node fabric-global address names its offset in translated memory (04 R89). -/
def State.reach (s : State) (ea : Nat) : Nat :=
  match nameOf ea with
  | .fabric node off => if node = s.pkg.node then off else ea
  | _ => ea

/-- Wait for the thread's accesses that overlap an address range, deliver the deferred cause of one that does (20 R426),
and make the checks of R218. -/
def withAccess (i : Instr) (s : State) (th : Thread) (ea size align desc : Nat) (form : Form)
    (k : State → Checked → Res) : Res :=
  let va := s.reach ea
  if th.overlapDeferred va size then .deliver
  else if th.overlapWait va size then .settle
  else
    match checkAccess s s.cur th i ea size align desc form with
    | .error f => f.res
    | .ok (s, c) =>
      match s.migratesTo th c.va c.homerun form.writes with
      | some die => migrateRes s th die
      | none => k s c

/-- A plain access record of the current instruction. -/
def newAccess (th : Thread) (op : AccOp) (ea size desc : Nat) (c : Checked) (dst : Dst) : Access where
  id := 0
  op := op
  va := c.va
  info := ea
  size := size
  place := c.place
  data := []
  home := false
  ord := .plain
  scope := .t
  l1ok := false
  consume := false
  isSealed := c.isSealed
  dst := dst
  srcX := []
  srcV := []
  srcE := false
  desc := desc
  fpc := th.pc.toNat
  dom := th.dom
  atom := c.atom
  bad := false
  state := .issued
  lost := false

/-- ORD and SCOPE of an access descriptor (20 R423). -/
def ordCode : AOrd → Nat
  | .plain => 0
  | .acq => 1
  | .rel => 2
  | .ar => 3

/-- SCOPE of an access descriptor: 0 unless there is an ordering. -/
def scopeBits (o : AOrd) (sc : Scope) : Nat :=
  match o with
  | .plain => 0
  | _ => sc.code

/-- The answer of a remote request: its value completes the instruction, a refusal traps REMOTE (20 R439). -/
def remoteDone (th : Thread) (ea : Nat) (k : Word → Word → Res) (first : Res) : Res :=
  match th.wait with
  | .value lo hi => k lo hi
  | .refused code => .trap .remote (BitVec.ofNat 64 ea) (BitVec.ofNat 64 code)
  | _ => first

/-! ## Loads (09 R221, R222) -/

/-- A load of the scalar forms. -/
structure LoadForm where
  bytes : Nat
  /-- Whether the instruction zero-extends (Z = 1). -/
  z : Bool
  ord : AOrd
  scope : Scope
  consume : Bool
  deriving DecidableEq, Repr

/-- The access descriptor of a scalar load (20 R423). -/
def loadDesc (f : LoadForm) (d : Reg) : Nat :=
  descriptor 0 (Nat.log2 f.bytes) 0 (if f.consume then 4 else ordCode f.ord) (scopeBits f.ord f.scope) (bit f.z) 0 d.val
    0 0 0

/-- A load of a scalar register from an address, with the taint of its address register (09 R222). A tainted address keeps
every load from the L1 (05 R130), a near acquire too, which 05 R120 admits there
(log entry 88: DEDUCED, safe). -/
def loadRes (i : Instr) (f : LoadForm) (d : Reg) (ea : Nat) (addrTaint : Bool) (s : State) (th : Thread) : Res :=
  let taint := f.consume || addrTaint
  let desc := loadDesc f d
  remoteDone th ea
    (fun lo _ =>
      let v := extend (leBytes f.bytes lo.toNat) (!f.z)
      let th := ({ th with wait := .none }.setX d v taint).next i.len
      let s := s.setThread s.cur th
      .done (match f.ord with | .acq => s.acquire (coreOfKey s.cur) f.scope | _ => s))
    (withAccess i s th ea f.bytes f.bytes desc .load fun s c =>
      if c.place = .remote then remoteRes s th ea 0x03 f.bytes 0 []
      else
        let near := f.ord == .acq && (f.scope == .t || f.scope == .c)
        let a := { newAccess th .load ea f.bytes desc c (.x d f.bytes (!f.z) taint) with
          ord := f.ord, scope := f.scope, consume := f.consume
          l1ok := ((f.ord == .plain && !f.consume) || near) && !addrTaint }
        .done (s.setThread s.cur ((th.addAccess a).next i.len)))

/-! ## Stores (09 R223, R224, R240) -/

/-- The contour check of a thread's write: the data as the registers leave it, or the CONTOUR trap with INFO2 by the address of the
first failing element (09 R241). -/
def withContourAs (info2 : Nat → Nat) (s : State) (va : Nat) (data : List Byte) (k : State → List Byte → Res) : Res :=
  let c := coreOfKey s.cur
  let core := s.core c
  let (cs, out) := contourCheck core.contours va data
  let s := s.setCore c { core with contours := cs }
  match out with
  | .pass d => k s (leBytes data.length d)
  | .trap n addr => .trapIn s .contour (BitVec.ofNat 64 n) (BitVec.ofNat 64 (info2 addr))

/-- The contour check of a store, whose trap names the element (18 R386; 17 R364). -/
def withContour (s : State) (va : Nat) (data : List Byte) (k : State → List Byte → Res) : Res :=
  withContourAs id s va data k

/-- A store's form: width, G, release ordering, the file and register of its data. -/
structure StoreForm where
  bytes : Nat
  home : Bool
  ord : AOrd
  scope : Scope
  srcX : List Nat
  srcV : List Nat
  file : Nat
  reg : Nat
  deriving DecidableEq, Repr

/-- The access descriptor of a store (20 R423). -/
def storeDesc (f : StoreForm) : Nat :=
  descriptor 1 (Nat.log2 f.bytes) (bit f.home) (ordCode f.ord) (scopeBits f.ord f.scope) 0 f.file f.reg 0 0 0

/-- A store issued by a thread, which then goes on as `after` gives. -/
def storeRes (i : Instr) (f : StoreForm) (ea : Nat) (data : List Byte) (form : Form) (s : State) (th : Thread)
    (after : Thread → Thread) : Res :=
  let desc := storeDesc f
  remoteDone th ea (fun _ _ => .done (s.setThread s.cur (after { th with wait := .none })))
    (withAccess i s th ea f.bytes f.bytes desc form fun s c =>
      withContour s c.va data fun s data =>
        if c.place = .remote then remoteRes s th ea 0x05 f.bytes 0 data
        else
          let a := { newAccess th .store ea f.bytes desc c .none with
            data := data, home := f.home, srcX := f.srcX, srcV := f.srcV }
          .done (s.setThread s.cur (after (th.addAccess a))))

/-- The low bytes of a register that a store writes. -/
def lowBytes (w : Word) (n : Nat) : List Byte := leBytes n w.toNat

/-- A store of a scalar register. -/
def storeX (i : Instr) (bytes : Nat) (home : Bool) (ord : AOrd) (scope : Scope) (src : Reg) (ea : Nat) (s : State)
    (th : Thread) : Res :=
  storeRes i ⟨bytes, home, ord, scope, [src.val], [], 0, src.val⟩ ea (lowBytes (th.getX src) bytes) .store s th
    (·.next i.len)

/-! ## Rings (04 R100, 09 R234) -/

/-- The ring a handle of a thread names: its number and the ring itself (04 R100). -/
def State.ringOf (s : State) (th : Thread) (h : Handle) : Ring := (s.cluster th.homeCluster).ring h.val

/-- The address of slot `slot` at an offset, from RD or WR (04 R100). -/
def ringAddr (cl : Nat) (r : Ring) (side : RSide) (slot off : Nat) : Nat :=
  let start := match side with
    | .filled => r.rd
    | .free => r.wr
  tileBase + cl * 0x00200000 + r.base * 64 + (start + slot) % (r.slotm1 + 1) * 2 ^ r.slotsz + off

/-- Whether an access of `n` bytes at a slot and offset lies in an enabled ring (09 R234, 10 R258). -/
def Ring.admitsSlot (r : Ring) (slot off n : Nat) : Bool :=
  r.en && decide (slot ≤ r.slotm1) && decide (off + n ≤ 2 ^ r.slotsz)

end Sys2Proof.Machine
end

