-- ==== Sys2Proof/Machine/Control.lean ====
section
/-!
DEFINITION. Branches, calls, the return store and the hardware loops (spec/08 R205 to R211), with C.BR and C.RET.
-/

namespace Sys2Proof.Machine

/-! ## The return store (07 R165, 08 R205) -/

/-- SPB: the first address of the return spill area. -/
def Thread.spillBase (th : Thread) : Nat := windowBase + 256 * th.ownOff

/-- RSTACK at the current instruction. -/
def rstack (th : Thread) : Res := .trap .rstack (th.pc.zeroExtend 64) (th.spilld.zeroExtend 64)

/-- A return-store entry from an address. -/
def rsEntry (a : BitVec 56) : Word := (a.zeroExtend 64) ||| 1

/-- V of a return-store entry. -/
def rsValid (w : Word) : Bool := w.getLsbD 0

/-- The address of a return-store entry. -/
def rsAddr (w : Word) : BitVec 56 := BitVec.ofNat 56 (wbits w 55 1 * 2)

/-- RS with an entry pushed at 0. -/
def rsPush (rs : Vector Word 8) (w : Word) : Vector Word 8 :=
  #v[w, rs[0], rs[1], rs[2], rs[3], rs[4], rs[5], rs[6]]

/-- RS with entry 0 popped. -/
def rsPop (rs : Vector Word 8) : Vector Word 8 := #v[rs[1], rs[2], rs[3], rs[4], rs[5], rs[6], rs[7], 0]

/-- The spill of entry 7 as a plain CLS store (08 R205). -/
def spillAccess (th : Thread) (c : Nat) (data : List Byte) : Access :=
  let va := th.spillBase + 8 * th.spilld.toNat
  let place := Place.single (windowPlace c (va - windowBase))
  { newAccess th .store va 8 (descriptor 1 3 0 0 0 0 5 0 0 0 0) ⟨place, va, false, false, false⟩ .none with data := data }

/-- push(a), and what follows it (08 R205): RSTACK or CONTOUR, naming the spill slot, before any effect (18 R391). -/
def pushRes (s : State) (th : Thread) (w : Word) (k : State → Thread → Res) : Res :=
  if !rsValid th.rs[7] then k s { th with rs := rsPush th.rs w }
  else if th.ownLen = 0 ∨ th.spilld = 32 then rstack th
  else
    let slot := th.spillBase + 8 * th.spilld.toNat
    withContourAs (fun _ => slot) s slot (leBytes 8 th.rs[7].toNat) fun s data =>
      let th := th.addAccess (spillAccess th (coreOfKey s.cur) data)
      k s { th with spilld := th.spilld + 1, rs := rsPush th.rs w }

/-- The place of a spill slot. -/
def Thread.spillPlace (th : Thread) (c n : Nat) : Nat := windowPlace c (th.spillBase + 8 * n - windowBase)

/-- A spill slot as a load of the thread binds it: from its own outstanding accesses where they have written it (05
R120). -/
def State.spillSlot (s : State) (th : Thread) (n : Nat) : Word :=
  BitVec.ofNat 64 (leNat (overlaySq th.acc (th.spillBase + 8 * n) (s.placeBytes (th.spillPlace (coreOfKey s.cur) n) 8)))

/-- pop() (08 R205): the address and the thread after it; none where it takes RSTACK, which a pop of the inline sentinel
does too (12 R287). -/
def State.pop (s : State) (th : Thread) : Option (BitVec 56 × Thread) :=
  if rsValid th.rs[0] then
    if isSentinel th.rs[0] then none else some (rsAddr th.rs[0], { th with rs := rsPop th.rs })
  else if th.spilld = 0 then none
  else
    let w := s.spillSlot th (th.spilld.toNat - 1)
    if !rsValid w || wbits w 63 56 != 0 || isSentinel w then none
    else some (rsAddr w, { th with spilld := th.spilld - 1 })

/-- Whether the load of spill slots waits for an earlier access that overlaps them: a load or an atomic that has not
performed (05 R123). -/
def Thread.slotWaits (th : Thread) (first n : Nat) : Bool :=
  th.acc.any fun a => a.op != .store && !a.hasPerformed
    && decide (a.va < th.spillBase + 8 * (first + n)) && decide (th.spillBase + 8 * first < a.va + a.size)

/-- pop() and what follows it: the refill is a plain CLS load, which waits for an earlier access that overlaps it and
consumes poison (08 R205; 05 R123; 21 R441). -/
def popRes (s : State) (th : Thread) (k : BitVec 56 → Thread → Res) : Res :=
  let n := th.spilld.toNat - 1
  let c := coreOfKey s.cur
  let refill := !rsValid th.rs[0] && th.spilld != 0
  if refill && th.slotWaits n 1 then .settle
  else if refill && !sqCovers th.acc (th.spillBase + 8 * n) 8 && s.isPoisoned (th.spillPlace c n) then .done (s.consume c (th.spillPlace c n))
  else
    match s.pop th with
    | none => rstack th
    | some (a, th) => k a th

/-! ## Branches and calls (08 R205, R207) -/

/-- The target of a PC-relative transfer. -/
def relTarget {n : Nat} (pc : BitVec 56) (off : BitVec n) : BitVec 56 := pc + 2 * off.signExtend 56

/-- A transfer to a register's address. PC is 56 bits; an address beyond them is outside translated memory, so its fetch
takes PROT (08 R207, 18 R390; log entry 17: DEDUCED, unsafe). -/
def transferTo (i : Instr) (s : State) (th : Thread) (a : Word) (isCall : Bool) : Res :=
  let th := th.transfer i.len (a.truncate 56) isCall
  if a.toNat < 2 ^ 56 then .done (s.setThread s.cur th)
  else if !th.deferred.isEmpty then .deliver
  else
    let desc := descriptor 3 1 0 0 0 0 5 0 0 0 0 + (unfetchable 0 a.toNat).bits
    .done (s.takeTrap s.cur th ⟨.prot, a, BitVec.ofNat 64 desc, a.toNat, a.toNat, false, false, false, none⟩)

/-- BR (08 R205). -/
def brRes {n : Nat} (i : Instr) (off : BitVec n) (s : State) (th : Thread) : Res :=
  .done (s.setThread s.cur (th.transfer i.len (relTarget th.pc off) false))

/-- RET (08 R207). -/
def retRes (i : Instr) (s : State) (th : Thread) : Res :=
  popRes s th fun a th => .done (s.setThread s.cur (th.transfer i.len a false))

/-- BR (08 R205). -/
def execBr (g : Guard) (off : BitVec 21) (s : State) : Out := issue (.br g off) s (brRes (.br g off) off)

/-- CALL (08 R205). -/
def execCall (g : Guard) (off : BitVec 21) (s : State) : Out :=
  issue (.call g off) s fun s th =>
    pushRes s th (rsEntry (th.after 4)) fun s th' =>
      .done (s.setThread s.cur (th'.transfer 4 (relTarget th.pc off) true))

/-- JR (08 R207). -/
def execJr (g : Guard) (a : Reg) (s : State) : Out :=
  issue (.jr g a) s fun s th =>
    if (th.getX a).getLsbD 0 then .trap .align (th.getX a) 0 else transferTo (.jr g a) s th (th.getX a) false

/-- CALLR (08 R207). -/
def execCallr (g : Guard) (a : Reg) (s : State) : Out :=
  issue (.callr g a) s fun s th =>
    if (th.getX a).getLsbD 0 then .trap .align (th.getX a) 0
    else pushRes s th (rsEntry (th.after 4)) fun s th' => transferTo (.callr g a) s th' (th.getX a) true

/-- RET (08 R207). -/
def execRet (g : Guard) (s : State) : Out := issue (.ret g) s (retRes (.ret g))

/-- C.BR (07 R171). -/
def execCBr (off : BitVec 11) (s : State) : Out := issue (.cBr off) s (brRes (.cBr off) off)

/-- C.RET (07 R171). -/
def execCRet (s : State) : Out := issue .cRet s (retRes .cRet)

/-! ## Hardware loops (08 R208, R209) -/

/-- A LOOP of `cnt` passes over a body of `len` + 1 halfwords: it opens a level, skips its body, or takes LOOPNEST. -/
def loopRes (cnt : Nat) (len : BitVec 10) (s : State) (th : Thread) : Res :=
  let start := th.after 4
  let fin := start + halves (len.toNat + 1)
  if cnt = 0 then .done (s.setThread s.cur (th.step fin))
  else if cnt > 16777215 then .trap .loopnest (th.pc.zeroExtend 64) 0
  else if !th.lact0 then
    .done (s.setThread s.cur
      { th with lact0 := true, lcount0 := BitVec.ofNat 24 cnt, lend := fin, llen0 := len, pc := start })
  else if th.lact1 || decide (th.pc.toNat < th.start0.toNat) || decide (th.lend.toNat < fin.toNat) then
    .trap .loopnest (th.pc.zeroExtend 64) 0
  else
    .done (s.setThread s.cur
      { th with lact1 := true, lcount1 := BitVec.ofNat 24 cnt, llen1 := len
                dend := BitVec.ofNat 10 ((th.lend.toNat - fin.toNat) / 2), pc := start })

/-- A LOOP whose guard is false skips its body, as a count of zero does (08 R197). -/
def loopSkip (len : BitVec 10) (s : State) (th : Thread) : State :=
  s.setThread s.cur (th.step (th.after 4 + halves (len.toNat + 1)))

/-- LOOP (08 R209). -/
def execLoop (g : Guard) (a : Reg) (len : BitVec 10) (s : State) : Out :=
  issueSkip (.loop g a len) s (loopSkip len) fun s th => loopRes (th.getX a).toNat len s th

/-- LOOPI (08 R209). -/
def execLoopi (g : Guard) (count : BitVec 11) (len : BitVec 10) (s : State) : Out :=
  issueSkip (.loopi g count len) s (loopSkip len) (loopRes count.toNat len)

end Sys2Proof.Machine
end

