-- ==== Sys2Proof/Machine/Matrix.lean ====
section
/-!
DEFINITION. The matrix instructions (spec/11 R260 to R280) and the operations of the matrix unit: the end of an occupancy,
the completion of a LATCH, and a pass on the field torus.
-/

namespace Sys2Proof.Machine

/-! ## Captures (11 R264, R271) -/

/-- The access descriptor of an A capture's granule, and of a LATCH granule (20 R423)
(log entry 61: DEDUCED, unsafe). -/
def granuleDesc (op file reg fmt gran : Nat) : Nat := descriptor op 6 0 0 0 0 file reg fmt gran 0

/-- The checks of one granule of A (11 R280, 18 R386 rows 6 and 8): in the CLS with LA = 0, within the A latch with
LA = 1. A plane that lies past 2 ^ 64 is outside the map (log entry 91: DEDUCED, unsafe). -/
def captureCheck (s : State) (th : Thread) (i : Instr) (la : Bool) (va : Nat) : Option Failed :=
  let desc := granuleDesc 4 5 0 0 0
  let off := va - windowBase
  if la then
    if decide (windowBase + latchOffset false ≤ va) && decide (va + 64 ≤ windowBase + latchOffset false + 2048) then none
    else some (protAt va desc 0 2)
  else if inClsRange va && !th.supervisor
      && !(decide (th.spanOff * 256 ≤ off) && decide (off < (th.spanOff + th.spanLen) * 256)) then
    some ⟨.resource, BitVec.ofNat 64 i.word, resourceInfo 5 va⟩
  else
    match (if 2 ^ 64 ≤ va then Named.nothing else nameOf va) with
    | .nothing => some (protAt va desc 0 1)
    | .window woff =>
      match windowRow (s.core (coreOfKey s.cur)).clsNow woff 64 with
      | none => some (protAt va desc 0 2)
      | some .cls => none
      | some _ => some (protAt va desc 0 3)
    | _ => some (protAt va desc 0 3)

/-- The capture of one granule of the private window, by its offset. -/
def captureAccess (th : Thread) (c off : Nat) : Access :=
  let va := windowBase + off
  newAccess th .load va 64 (granuleDesc 4 5 0 0 0) ⟨.single (windowPlace c off), va, false, false, false⟩ (.unit off)

/-- Add accesses to a thread in order. -/
def Thread.addAll (th : Thread) (l : List Access) : Thread := l.foldl Thread.addAccess th

/-- Issue of an MM or MMR to a free unit: the checks of A, then the captures of its granules and of the latches. -/
def mmRes (i : Instr) (pair : Fin 22) (z : ZTile) (u la pass : Bool) (a b vs : Reg) (s : State) (th : Thread) : Res :=
  let c := coreOfKey s.cur
  let base : Word := if la then BitVec.ofNat 64 (windowBase + latchOffset false) else th.getX a
  let ps := th.getX b
  let starts := if 15 ≤ pair.val then
      (List.range (pairPlanes pair.val)).map fun j => (base.toNat + j * ps.toNat, 256)
    else [(base.toNat, operandBytes pair.val (pairFmtA pair.val u))]
  let gs := granulesOf starts
  let first := if la then none else captureCheck s th i la base.toNat
  match first with
  | some ⟨.resource, info, info2⟩ => .trap .resource info info2
  | _ =>
    if base.toNat % 64 ≠ 0 then .trap .align base 0
    else if 15 ≤ pair.val ∧ (ps.toNat % 4 ≠ 0 ∨ ps.toNat < 256) then .trap .align ps 0
    else
      match gs.findSome? (captureCheck s th i la) with
      | some f => .trap f.cause f.info f.info2
      | none =>
        let latch (b : Bool) (n : Nat) : List (Nat × Nat) := [(latchOffset b, n)]
        let aRanges := rangesA pair.val u (base.toNat - windowBase) ps.toNat
        let ranges := if pass then aRanges ++ latch false 2048 ++ latch true 2048
          else aRanges ++ latch true (bytesB pair.val)
        let offs := granulesOf ranges
        let scales := (scaleRegs pair.val vs.val).flatMap fun n => leBytes 32 (th.getV (regNat n)).toNat
        let job : MxJob :=
          ⟨.mm pair.val z u (base.toNat - windowBase) ps.toNat, some (s.cur % 4), [], offs.length, scales, pass⟩
        let s := s.setCore c { s.core c with mx := some job }
        .done (s.setThread s.cur ((th.addAll (offs.map (captureAccess th c))).next 4))

/-- MM (11 R270): it waits while the unit is busy. -/
def execMm (g : Guard) (pair : Fin 22) (z : ZTile) (u la : Bool) (a b vs : Reg) (s : State) : Out :=
  issue (.mm g pair z u la a b vs) s fun s th =>
    let c := coreOfKey s.cur
    if (s.core c).unitBusy then .done s.awaitUnit
    else mmRes (.mm g pair z u la a b vs) pair z u la false a b vs s th

/-- MMR (11 R272): it waits until the unit is free and both latches have TFULL = 1. -/
def execMmr (g : Guard) (pair : Fin 22) (z : ZTile) (u : Bool) (b vs : Reg) (s : State) : Out :=
  issue (.mmr g pair z u b vs) s fun s th =>
    let c := coreOfKey s.cur
    let k := s.core c
    if k.unitBusy || !k.tfullA || !k.tfullB then .done s.awaitUnit
    else mmRes (.mmr g pair z u b vs) pair z u true true 0 b vs s th

/-! ## LATCH and ZLD (11 R267, R276) -/

/-- Check the granules of a bulk read in ascending order: the state after, their accesses, and the die to which the first of them
that is homed elsewhere under home-run moves the thread (03 R81; log entry 58: DEDUCED, unsafe); the first failure ends it with no
effect. -/
def bulkReads (i : Instr) (th : Thread) (base : Nat) (desc : Nat → Nat) (dst : Nat → Dst) (taint : Bool) :
    List Nat → State → Except CheckFail (State × List Access × Option Nat)
  | [], s => .ok (s, [], none)
  | g :: gs, s =>
    let va := (base + 64 * g) % 2 ^ 64
    match checkAccess s s.cur th i va 64 64 (desc g) .bulkRead with
    | .error f => .error f
    | .ok (s, c) =>
      match bulkReads i th base desc dst taint gs s with
      | .error f => .error f
      | .ok (s, l, move) =>
        .ok (s, { newAccess th .load va 64 (desc g) c (dst g) with l1ok := !taint } :: l,
          (s.migratesTo th c.va c.homerun false).or move)

/-- A bulk read: the waits and checks of its granules, a move to their home, and what follows with the accesses. -/
def withBulk (i : Instr) (s : State) (th : Thread) (base n : Nat) (desc : Nat → Nat) (dst : Nat → Dst) (taint : Bool)
    (k : State → List Access → Res) : Res :=
  if th.overlapDeferred base (64 * n) then .deliver
  else if th.overlapWait base (64 * n) then .settle
  else
    match bulkReads i th base desc dst taint (List.range n) s with
    | .error f => f.res
    | .ok (s, _, some die) => migrateRes s th die
    | .ok (s, l, none) => k s l

/-- LATCH into a latch: a second one waits until the first has completed (11 R267). -/
def latchRes (i : Instr) (b : Bool) (a : Reg) (s : State) (th : Thread) : Res :=
  let c := coreOfKey s.cur
  match (s.core c).latchJob.find? (·.1 == b) with
  | some (_, t) =>
    let s := s.markBusy s.cur
    .done (if (s.thread t).any (·.latched b) then s.latchDone c b else s.progress t)
  | none =>
    withBulk i s th (th.getX a).toNat 32 (granuleDesc 4 (if b then 4 else 3) 0 0) (fun g => .latch b (64 * g))
      (th.getTaint a) fun s l =>
        let k := s.core c
        let s := s.setCore c { k with latchJob := k.latchJob ++ [(b, s.cur)] }
        .done (s.setThread s.cur ((th.addAll l).next 4))

/-- LATCH.A (11 R267). -/
def execLatchA (g : Guard) (a : Reg) (s : State) : Out :=
  issue (.latchA g a) s (latchRes (.latchA g a) false a)

/-- LATCH.B (11 R267). -/
def execLatchB (g : Guard) (a : Reg) (s : State) : Out :=
  issue (.latchB g a) s (latchRes (.latchB g a) true a)

/-- ZLD (11 R276). -/
def execZld (g : Guard) (z : ZTile) (a : Reg) (fmt : Fin 32) (s : State) : Out :=
  issue (.zld g z a fmt) s fun s th =>
    let c := coreOfKey s.cur
    let n := 2 * fmtWidth fmt.val
    if (s.core c).unitBusy then .done s.awaitUnit
    else
      withBulk (.zld g z a fmt) s th (th.getX a).toNat n (granuleDesc 5 2 z.val fmt.val) (fun g => .unit (64 * g))
        (th.getTaint a) fun s l =>
          let job : MxJob := ⟨.zld z fmt.val, some (s.cur % 4), [], n, [], false⟩
          let s := s.setCore c { s.core c with mx := some job }
          .done (s.setThread s.cur ((th.addAll l).next 4))

/-! ## ZST (11 R277, R278) -/

/-- One granule a ZST writes: its number, address and bytes. -/
structure ZGranule where
  n : Nat
  va : Nat
  bytes : List Byte
  deriving DecidableEq, Repr

/-- The granules of a ZST: its elements, then the scales of a narrow format (11 R277)
(log entry 62: DEDUCED, unsafe). -/
def zstGranules (base : Nat) (bs scales : List Byte) : List ZGranule :=
  let el := (chunks 64 64 bs).mapIdx fun n b => ⟨n, (base + 64 * n) % 2 ^ 64, b⟩
  if scales.isEmpty then el else el ++ [⟨el.length, (base + bs.length) % 2 ^ 64, scales⟩]

/-- What the checks of a ZST's granules found: the state, with the contour counts, the accesses of the granules below the
first failure, the failure with its access, and the die to which a home-run granule moves the thread (03 R81). -/
structure ZChecked where
  s : State
  accs : List Access
  stop : Option (CheckFail × Access)
  move : Option Nat
  deriving DecidableEq, Repr

/-- Check a ZST's granules in ascending order up to the first that fails (11 R278); the first that is homed elsewhere under home-run
moves the thread (03 R81; log entry 58: DEDUCED, unsafe). -/
def zstCheck (i : Instr) (th : Thread) (z : ZTile) (fmt : Nat) : List ZGranule → State → ZChecked
  | [], s => ⟨s, [], none, none⟩
  | g :: gs, s =>
    let n := g.bytes.length
    let desc := descriptor 6 6 0 0 0 0 2 z.val fmt g.n 0
    let raw := newAccess th .store g.va n desc ⟨.line, g.va, false, false, false⟩ .none
    match checkAccess s s.cur th i g.va n n desc .bulkWrite with
    | .error f => ⟨s, [], some (f, raw), none⟩
    | .ok (s, c) =>
      let core := s.core (coreOfKey s.cur)
      let (cs, out) := contourCheck core.contours c.va g.bytes
      let s := s.setCore (coreOfKey s.cur) { core with contours := cs }
      match out with
      | .trap m _ => ⟨s, [], some (.trap s ⟨.contour, BitVec.ofNat 64 m, BitVec.ofNat 64 g.va⟩, raw), none⟩
      | .pass d =>
        let r := zstCheck i th z fmt gs s
        { r with
          accs := { newAccess th .store g.va n desc c .none with data := leBytes n d } :: r.accs
          move := (s.migratesTo th c.va c.homerun true).or r.move }

/-- Decide the translations of a ZST's granules in ascending order: the accesses below the first refusal, and it
(11 R278, 20 R436). -/
def zstWalks (t : Nat) (th : Thread) : List Access → State → State × List Access × Option (Access × Refused)
  | [], s => (s, [], none)
  | a :: rest, s =>
    let die := dieOfCore (coreOfKey t)
    match a.place with
    | .line =>
      match linePage s th.part die (lineOf a.va) true with
      | .error r => (s, [], some (a, r))
      | .ok _ =>
        let s := if s.lacksXlate t th a then s.serveWalk th.part die a else s
        let (s, l, r) := zstWalks t th rest s
        (s, a :: l, r)
    | _ =>
      let (s, l, r) := zstWalks t th rest s
      (s, a :: l, r)

/-- Append a deferred cause whose access is the thread's next. -/
def Thread.defer (th : Thread) (cause : Cause) (info info2 : Word) (a : Access) : Thread :=
  { th with deferred := th.deferred ++ [⟨cause, info, info2, { a with id := th.nextId }⟩], nextId := th.nextId + 1 }

/-- ZST's body: the granules below the first failing one are stored; a failed check traps when they have performed; a
refused translation, and a CONTOUR found while a translation was outstanding, is deferred (11 R278, 20 R436). -/
def zstRes (i : Instr) (z : ZTile) (fmt base : Nat) (s : State) (th : Thread) : Res :=
  let (bs, scales, r) := zstBytes fmt (s.tile (coreOfKey s.cur) z)
  let size := bs.length + scales.length
  let ck := zstCheck i th z fmt (zstGranules base bs scales) s
  if th.overlapDeferred base size then .deliver
  else if th.overlapWait base size then .settle
  else if ck.accs.any fun a => a.place == .line && s.hostWaits th.part (dieOfCore (coreOfKey s.cur)) a.va then .settle
  else
    match ck.move with
    | some die => migrateRes s th die
    | none =>
      let outstanding := ck.accs.any (ck.s.lacksXlate s.cur th)
      let (s, accs, refused) := zstWalks s.cur th ck.accs ck.s
      let th' := th.addAll accs
      match refused, ck.stop with
      | some (a, w), _ =>
        let s := s.s2refusal th.part a.va w
        let th' := th'.defer w.cause (BitVec.ofNat 64 a.info) (BitVec.ofNat 64 (a.desc + w.bits)) a
        .done (s.setThread s.cur ((th'.raise r).next 4))
      | none, some (.trap _ f, a) =>
        if f.cause = .contour ∧ outstanding then
          .done (s.setThread s.cur (((th'.defer f.cause f.info f.info2 a).raise r).next 4))
        else
          .done (s.takeTrap s.cur th' ⟨f.cause, f.info, f.info2, th.pc.toNat, th.pc.toNat, false, false, false, none⟩)
      | none, some (.poison p, _) => .done p
      | none, some (.waits, _) => .settle
      | none, none => .done (s.setThread s.cur ((th'.raise r).next 4))

/-- ZST (11 R277). -/
def execZst (g : Guard) (z : ZTile) (a : Reg) (fmt : Fin 32) (s : State) : Out :=
  issue (.zst g z a fmt) s fun s th =>
    let c := coreOfKey s.cur
    if (s.core c).unitBusy then .done s.awaitUnit
    else zstRes (.zst g z a fmt) z fmt.val (th.getX a).toNat s th

/-- ZCLR (11 R279). -/
def execZclr (g : Guard) (z : ZTile) (s : State) : Out :=
  issue (.zclr g z) s fun s th =>
    let c := coreOfKey s.cur
    if (s.core c).unitBusy then .done s.awaitUnit
    else .done ((s.store (ztilePlace c z 0) (List.replicate 4096 0)).setThread s.cur (th.next 4))

/-! ## Operations of the unit -/

/-- LATCH_COMPLETION (11 R267). -/
def execLatchCompletion (c : Nat) (latch : Bool) (s : State) : Out := .next (s.latchDone c latch)

/-- MATRIX_UNIT_COMPLETION (11 R261, R270, R276). -/
def execMatrixUnitCompletion (c : Nat) (s : State) : Out := .next (s.unitDone c)

/-- PASS (11 R272). -/
def execPass (c : Nat) (south : Bool) (s : State) : Out := .next (s.passOne c south)

end Sys2Proof.Machine
end

