-- ==== Sys2Proof/Machine/Slots.lean ====
section
/-!
DEFINITION. Slots and the storage a thread is given with one: which slots a gang or a handler keeps (spec/02 R50 to R54,
spec/03 R72), CLS spans (spec/03 R77, spec/07 R180) and tile-store frames (spec/03 R76).
-/

namespace Sys2Proof.Machine

/-- The slots of a core, in order. -/
def coreSlots (c : Nat) : List Nat := (List.range 4).map (c * 4 + ·)

/-- The cores of a cluster, in order. -/
def clusterCores (cl : Nat) : List Nat := (List.range 16).map (coreOfCluster cl)

/-- The slots of a cluster, by core and slot. -/
def clusterSlots (cl : Nat) : List Nat := (clusterCores cl).flatMap coreSlots

/-- Whether a gang keeps a slot: a target slot, or with FUSEL1 any slot of a cluster it occupies (03 R72), until it
retires or is preempted. -/
def Gang.keeps (g : Gang) (t : Nat) : Bool :=
  !g.preempted && (g.slots.contains t || (g.fused && g.clusters.contains (clusterOfCore (coreOfKey t))))

/-- Whether a gang holds or reserves a slot, or a supervisor thread is to move there (03 R72, R73). -/
def State.gangKeeps (s : State) (t : Nat) : Bool :=
  (s.gangs.any fun e => e.2.keeps t) || s.parts.any fun e => e.2.moveTo == some t

/-- Whether a slot runs only handler threads: slot 3 of a core whose H3 is in force (03 R77). -/
def State.isHandlerSlot (s : State) (t : Nat) : Bool := t % 4 == 3 && (s.core (coreOfKey t)).h3Now

/-- Whether a slot is empty on a core of a present cluster that is not killed (01 R20, 21 R442). -/
def State.slotEmpty (s : State) (t : Nat) : Bool :=
  (s.thread t).isNone && !(s.core (coreOfKey t)).killed && s.pkg.present (clusterOfCore (coreOfKey t))

/-- Whether tasks, or the supervisor thread, may be given a slot (03 R73, R77). -/
def State.slotOpen (s : State) (t : Nat) : Bool := s.slotEmpty t && !s.gangKeeps t && !s.isHandlerSlot t

/-- The core of a field's reserved handler slot, while its cluster is neither contained nor retired (01 R21, 19 R420, 21 R455). -/
def State.reservedHandler (s : State) (f : Nat) : Option Nat :=
  (s.pkg.handlerCore f).filter fun c => s.pkg.present (clusterOfCore c) && !(s.cluster (clusterOfCore c)).contained

/-! ## First fit -/

/-- Whether a run of `len` units at `o` meets none of the runs in use. -/
def fitsAt (used : List (Nat × Nat)) (o len : Nat) : Bool :=
  used.all fun u => decide (o + len ≤ u.1) || decide (u.1 + u.2 ≤ o)

/-- The lowest run of `len` free units from `lo` to `cap`. -/
def firstFit (used : List (Nat × Nat)) (lo cap len : Nat) : Option Nat :=
  ((lo :: used.map fun u => u.1 + u.2).filter fun o => decide (lo ≤ o) && decide (o + len ≤ cap) && fitsAt used o len).foldl
    (fun m o => match m with
      | none => some o
      | some k => some (Nat.min k o)) none

/-! ## CLS spans (03 R77, 07 R180) -/

/-- The CLS runs in use on a core, in 256-byte units. -/
def Cluster.clsOf (k : Cluster) (c : Nat) : List (Nat × Nat) := (k.cls.filter (·.1 == c)).map (·.2)

/-- Free CLS of a core in 256-byte units. -/
def State.clsFree (s : State) (c : Nat) : Nat :=
  (s.core c).clsNow * 256 - (((s.cluster (clusterOfCore c)).clsOf c).map (·.2)).foldl (· + ·) 0

/-- Where a core's CLS holds a new run: the lowest contiguous one (log entry 22: DESIGN CHOICE, unsafe). -/
def State.clsFit (s : State) (c len : Nat) : Option Nat :=
  if len = 0 then some 0 else firstFit ((s.cluster (clusterOfCore c)).clsOf c) 0 ((s.core c).clsNow * 256) len

/-- Take a CLS run of a core. -/
def State.takeCls (s : State) (c off len : Nat) : State :=
  if len = 0 then s
  else
    let cl := clusterOfCore c
    let k := s.cluster cl
    s.setCluster cl { k with cls := k.cls ++ [(c, off, len)] }

/-- A new CLS run is uninitialised (02 R39; 00 R4). -/
def State.freshCls (s : State) (c off len : Nat) : State :=
  (s.takeCls c off len).scramble (windowPlace c (off * 256)) (len * 256)

/-! ## Frames (03 R76) -/

/-- First unit of a cluster's frame area (04 R98). -/
def Cluster.frameLow (k : Cluster) : Nat := k.ringArea + k.parkArea

/-- 2 KiB units of a cluster's frame area. -/
def Cluster.frameUnits (k : Cluster) : Nat := 1024 - k.frameLow

/-- Where a new frame goes. -/
def Cluster.frameFit (k : Cluster) (len : Nat) : Option Nat := firstFit k.frames k.frameLow 1024 len

/-- The address of a frame (02 R39; 04 R86). -/
def frameAddress (cl unit : Nat) : Word := BitVec.ofNat 64 (tileBase + cl * 0x00200000 + unit * 2048)

/-- The x registers of a thread at its first instruction: x1 to x6 the arguments, x7 and x8 as the kind gives, none beyond the
declared count (02 R39, R52). -/
def entryRegs (xcount : Nat) (args : List Word) (x7 x8 : Word) : Vector Word 32 :=
  let ws := ((List.range 6).map fun i => (args[i]?).getD 0) ++ [x7, x8]
  (List.range (Nat.min 8 (xcount - 1))).foldl (fun x i => x.setIfInBounds (i + 1) ((ws[i]?).getD 0)) (Vector.replicate 32 0)

/-- The largest CLS share in force on a core of a cluster, in 256-byte units (19 R412, R413). -/
def State.clsLargest (s : State) (cl : Nat) : Nat :=
  ((clusterCores cl).map fun c => (s.core c).clsNow * 256).foldl Nat.max 0

end Sys2Proof.Machine
end

