-- ==== Sys2Proof/Machine/Futures.lean ====
section
/-!
DEFINITION. The future tables (spec/02 R41 to R48): lookup, allocation and its stalls, spilling, terminal states and
their waiters, cancellation (spec/12 R282 to R295, spec/19 R400 to R411), and what a cluster performs for other agents.
-/

namespace Sys2Proof.Machine

/-! ## The table of a cluster (02 R42, R43, R46) -/

/-- What a handle names at its owner (02 R42). -/
inductive FutRef where
  | live (e : Future)
  | spilled (r : Spill)
  | stale
  deriving DecidableEq, Repr

/-- Whether a spill record is a handle's. -/
def Spill.of (r : Spill) (f : Word) : Bool :=
  r.slot == handleSlot f && r.gen == handleGen f && r.part == handlePart f

/-- The entry or spill record a handle names. -/
def Cluster.futRef (k : Cluster) (f : Word) : FutRef :=
  let aside := match k.spills.find? (·.of f) with
    | some r => FutRef.spilled r
    | none => .stale
  match k.futures.find (handleSlot f) with
  | some e => if e.gen = handleGen f ∧ e.part = handlePart f then .live e else aside
  | none => aside

/-- The cluster with the entry of a handle replaced, at cycle `now`: an event of 19 R403. -/
def Cluster.putFuture (k : Cluster) (f : Word) (e : Future) : Cluster :=
  { k with futures := k.futures.put (handleSlot f) e }

/-- The cluster without what a handle names: the slot becomes FREE, or the spill record is deleted. -/
def Cluster.freeFuture (k : Cluster) (f : Word) (now : Nat) : Cluster :=
  match k.futRef f with
  | .live _ => { k with futures := k.futures.erase (handleSlot f), stallSince := now }
  | .spilled _ => { k with spills := k.spills.filter fun r => !r.of f, stallSince := now }
  | .stale => k

/-! ## Spilling (02 R46, 19 R401) -/

/-- Whether an entry can spill: RESOLVED without waiters. -/
def Future.spillable (e : Future) : Bool := e.state == .resolved && e.waiters.isEmpty

/-- The spillable entry that resolved first. -/
def Cluster.oldestResolved (k : Cluster) : Option (Nat × Future) :=
  k.futures.foldl
    (fun m e =>
      if e.2.spillable then
        (match m with
         | some n => if n.2.order ≤ e.2.order then m else some e
         | none => some e)
      else m) none

/-- Records the spill area holds. -/
def Cluster.spillRoom (k : Cluster) : Nat := k.fspillSize * 128

/-- Whether the cluster can spill an entry now. -/
def Cluster.canSpill (k : Cluster) : Bool :=
  !k.spillRefused && decide (k.spills.length < k.spillRoom) && k.oldestResolved.isSome

/-- The record space that the next spilled entry takes: the lowest free one (log entry 13: DESIGN CHOICE, unsafe). -/
def Cluster.spillIndex (k : Cluster) : Nat :=
  ((List.range (k.spills.length + 1)).find? fun i => !k.spills.any (·.index == i)).getD 0

/-- The address of a spill record. -/
def Cluster.spillAddr (k : Cluster) (i : Nat) : Nat := k.fspillBase + 32 * i

/-- A spill record's 32 bytes: handle, VALUE, STATUS with the flags above it (02 R46; the order: log entry 13: DESIGN CHOICE,
unsafe). -/
def spillBytes (f : Word) (e : Future) : List Byte :=
  leBytes 8 f.toNat ++ leBytes 8 e.value.toNat ++ leBytes 8 (bit e.linked * 2 ^ 17 + bit e.single * 2 ^ 16 + e.status.toNat)
    ++ List.replicate 8 0

/-- Whether the next spill write of a cluster is translated (19 R401)
(log entry 82: DEDUCED, safe). -/
def State.spillAllowed (s : State) (cl : Nat) : Bool :=
  let k := s.cluster cl
  let va := k.spillAddr k.spillIndex
  !s.hostWaits (s.clusterPart cl) (dieOfCluster cl) va
    && (s.serviceStore (s.clusterPart cl) (dieOfCluster cl) va (List.replicate 32 0)).toOption.isSome

/-- Spill one entry (02 R46): its record is written to the area under the partition's translation, a refused write is counted
SPILLREF and ends spilling until FSPILLBASE is written, and SPILLFULL counts an area that becomes full. -/
def State.spillOne (s : State) (cl : Nat) : State :=
  let k := s.cluster cl
  match k.oldestResolved with
  | none => s
  | some (slot, e) =>
    let i := k.spillIndex
    let p := s.clusterPart cl
    let d := dieOfCluster cl
    if k.spillRefused || decide (k.spillRoom ≤ k.spills.length) || s.hostWaits p d (k.spillAddr i) then s
    else
      match s.serviceStore p d (k.spillAddr i) (spillBytes (mkHandle s.pkg.node cl slot e.gen e.part) e) with
      | .error _ => (s.setCluster cl { k with spillRefused := true }).count p ctrSpillref
      | .ok s =>
        let k := s.cluster cl
        let s := s.setCluster cl { k with
          spills := k.spills ++ [⟨slot, e.gen, e.part, i, e.single, e.linked⟩], futures := k.futures.erase slot
          stallSince := s.now }
        if k.spills.length + 1 = k.spillRoom then s.count p ctrSpillfull else s

/-- The read of a spill record, which serves a touch or a test with VALUE and STATUS: none when it is refused (19 R401), or
poisoned (21 R441; log entry 13: DESIGN CHOICE, unsafe). -/
def State.refetch (s : State) (cl : Nat) (r : Spill) : Option (State × Word × BitVec 16) :=
  let va := (s.cluster cl).spillAddr r.index
  let p := s.clusterPart cl
  let d := dieOfCluster cl
  match s.serviceLoad p d va with
  | .error _ => none
  | .ok (s, lo, bad) =>
    if 24 ≤ lo.length then
      if bad then none else some (s, imageWord lo 8, BitVec.ofNat 16 (imageWord lo 16).toNat)
    else
      match s.serviceLoad p d (va + 16) with
      | .error _ => none
      | .ok (s, hi, bad') => if bad || bad' then none else some (s, imageWord lo 8, BitVec.ofNat 16 (imageWord hi 0).toNat)

/-- FUTURE_SPILL (02 R46): above 3,584 entries, down to 3,072. -/
def State.futureSpill (s : State) (cl : Nat) : State :=
  let k := s.cluster cl
  let n := k.futures.length
  if n ≤ 3072 || k.oldestResolved.isNone then s.setCluster cl { k with spilling := false }
  else if k.spilling || decide (3584 < n) then (s.setCluster cl { k with spilling := true }).spillOne cl
  else s

/-! ## Allocation and its stalls (02 R43, 19 R400) -/

/-- Every cluster of a partition on this node. -/
def State.clustersOf (s : State) (p : Nat) : List Nat :=
  (s.part p).granules.flatMap fun g => ((List.range 16).map (g * 16 + ·)).filter s.pkg.present

/-- The first number from `n`, of `fuel`, that a map does not hold. -/
def Map.firstFree {α : Type} (m : Map α) : Nat → Nat → Nat
  | 0, n => n
  | fuel + 1, n => if (m.find n).isNone then n else Map.firstFree m fuel (n + 1)

/-- Entries of a future table, and descriptors of a task pool (01 R19, 19 R401). -/
def tableSize : Nat := 4096

/-- Task-pool descriptors of a cluster (01). -/
def poolSize : Nat := 1024

/-- Entries of a pending-launch pool (03 R75). -/
def launchPoolSize : Nat := 64

/-- Allocate an entry of a cluster that has room, spilling one when the table is full: its handle (02 R42, R43). The lowest
free slot is taken; the spec names none (log entry 20: DESIGN CHOICE, unsafe). -/
def State.allocate (s : State) (cl p : Nat) (single linked : Bool) (pr : Producer) : Word × State :=
  let s := if tableSize ≤ (s.cluster cl).futures.length then s.spillOne cl else s
  let k := s.cluster cl
  let slot := Map.firstFree k.futures tableSize 0
  let gen := (k.gens.find slot).getD 0 % 2097151 + 1
  let f := mkHandle s.pkg.node cl slot gen p
  let e : Future := ⟨gen, p, .pending, 0, 0, single, linked, pr, [], none, 0⟩
  (f, s.setCluster cl { k with futures := k.futures.put slot e, gens := k.gens.put slot gen, stallSince := s.now })

/-- Whether an allocation of a kind finds what it needs: an entry, with 1 a descriptor too, with 2 a place in the
partition's pending-launch pool (19 R400). -/
def State.satisfied (s : State) (cl p kind : Nat) : Bool :=
  let k := s.cluster cl
  (decide (k.futures.length < tableSize) || (k.canSpill && s.spillAllowed cl))
    && (kind != 1 || decide (k.tasks.length < poolSize))
    && (kind != 2 || decide ((s.part p).pool.length < launchPoolSize))

/-- Whether a stall of another cluster of a partition waits for its pending-launch pool, began before one of cluster `cl`, and is
satisfied: on a tie the lower cluster goes first (19 R405). -/
def State.poolOwed (s : State) (cl p : Nat) (since : Option Nat) : Bool :=
  (s.clustersOf p).any fun c => c != cl && (s.cluster c).stalls.any fun x =>
    x.2.1 == 2 && s.satisfied c p 2
      && (since.map fun n => decide (x.2.2 < n) || (x.2.2 == n && decide (c < cl))).getD true

/-- Whether a thread's allocation is served now: it is satisfied, and no stall that began before it would be (19 R400, R405). -/
def State.served (s : State) (cl p t kind : Nat) : Bool :=
  let stalls := (s.cluster cl).stalls
  s.satisfied cl p kind && ((stalls.takeWhile (·.1 != t)).all fun x => !s.satisfied cl p x.2.1)
    && !(kind == 2 && s.poolOwed cl p ((stalls.find? (·.1 == t)).map (·.2.2)))

/-- Whether no stalled allocation of a cluster is satisfied by what is free, so that an entry or a descriptor may go elsewhere (19
R400, R422). -/
def State.noneOwed (s : State) (cl p : Nat) : Bool := (s.cluster cl).stalls.all fun x => !s.satisfied cl p x.2.1

/-- A thread's stall begins, or goes on (19 R400). -/
def State.stall (s : State) (cl t : Nat) (th : Thread) (kind : Nat) : State :=
  let k := s.cluster cl
  let k := if k.stalls.any (·.1 == t) then k else { k with stalls := k.stalls ++ [(t, kind, s.now)] }
  (s.setCluster cl k).setThread t { th with wait := .alloc }

/-- A thread's stall ends. -/
def State.unstall (s : State) (cl t : Nat) : State :=
  let k := s.cluster cl
  if k.stalls.any (·.1 == t) then s.setCluster cl { k with stalls := k.stalls.filter (·.1 != t) } else s

/-- Allocate an entry in the issuer's own cluster, or stall (12 R286). -/
def allocRes (s : State) (th : Thread) (kind : Nat) (single linked : Bool) (pr : Producer)
    (k : State → Thread → Word → Res) : Res :=
  let cl := clusterOfCore (coreOfKey s.cur)
  if s.served cl th.part s.cur kind then
    let (f, s) := (s.unstall cl s.cur).allocate cl th.part single linked pr
    k s { th with wait := .none } f
  else .done (s.stall cl s.cur th kind)

/-! ## Terminal states and waiters (02 R44, R49; 12 R290) -/

/-- The third payload word of an answer (log entry 18: DESIGN CHOICE, safe): the code of the answer, whether it serves every
waiter of the handle that the owner had recorded for the node, whether the others of them are left without the value, and how
many they are. -/
def answerWord (code : Nat) (serves gone : Bool) (n : Nat) : Nat := n * 2 ^ 32 + bit gone * 2 ^ 9 + bit serves * 2 ^ 8 + code

/-- A packet that answers a future operation of another node (15 R330): VALUE, STATUS and the word of the answer. -/
def State.answerNode (s : State) (f : Word) (dest tag word : Nat) (value : Word) (status : BitVec 16) : State :=
  let payload := leBytes 8 value.toNat ++ leBytes 8 status.toNat ++ leBytes 8 word
  s.emit (s.packet (handlePart f) 0x0A (endpoint s.pkg.node (7168 + handleCluster f)) dest 1 0 0 24 tag f.toNat payload)

/-- The state code of a terminal state (12 R289). -/
def FState.code : FState → Nat
  | .pending => 1
  | .resolved => 2
  | .poisoned => 3
  | .cancelled => 4

/-- What a waiter receives: the terminal state, or nothing of a future that was consumed before it (12 R290). -/
def waitAnswer (gone : Bool) (st : FState) (value : Word) (status : BitVec 16) : Wait :=
  if gone then .stale else .answer st value status

/-- The node of a waiter that is on another one. -/
def Waiter.node? : Waiter → Option Nat
  | .node ep _ => some (endNode ep)
  | _ => none

/-- One wake message to a node for its waiters of an entry (02 R47). -/
def State.tellNode (s : State) (f : Word) (st : FState) (value : Word) (status : BitVec 16) :
    List (Waiter × Bool) → State
  | (.node ep tag, gone) :: rest =>
    s.answerNode f ep tag (answerWord (if gone then 0 else st.code) true (rest.any (·.2)) (rest.length + 1)) value status
  | _ => s

/-- Tell the waiters of an entry of cluster `cl`, each with whether it is left without the value (02 R47): at once in the
owning cluster, by one message to each other cluster and to each other node. -/
def State.tell (s : State) (cl : Nat) (f : Word) (st : FState) (value : Word) (status : BitVec 16)
    (ws : List (Waiter × Bool)) : State :=
  let s := (ws.filter fun w => w.1.cluster == some cl).foldl (fun s w => s.wake w.1 (waitAnswer w.2 st value status)) s
  let others := (ws.filterMap fun w => w.1.cluster).eraseDups.filter (· != cl)
  let msgs : List WakeMsg := others.map fun c => ⟨c, ws.filter fun w => w.1.cluster == some c, f, st, value, status⟩
  let s := { s with wakes := s.wakes ++ msgs }
  (ws.filterMap fun w => w.1.node?).eraseDups.foldl
    (fun s n => s.tellNode f st value status (ws.filter fun w => w.1.node? == some n)) s

/-- Move a PENDING entry to a terminal state in one serial step (02 R44, 12 R290, 03 R67): every waiter of a future that is
not single-touch is told; of a single-touch one only the first receives the value, and consumes the entry unless it is a
TOUCH that traps; a record's completion notice leaves. -/
def State.settleFuture (s : State) (f : Word) (e : Future) (st : FState) (value : Word) (status : BitVec 16) : State :=
  let cl := handleCluster f
  let k := s.cluster cl
  let e' := { e with state := st, value := value, status := status, waiters := [], order := k.resolveCount }
  let k := { k.putFuture f e' with resolveCount := k.resolveCount + 1, stallSince := s.now }
  let s := s.setCluster cl k
  let s : State := match e.mark with
    | some r => { s with dist := { s.dist with notices := s.dist.notices ++ [⟨r, value, status⟩] } }
    | none => s
  let consumed := e.single && (match e.waiters with
    | [] => false
    | (_, isQ) :: _ => isQ || st == .resolved)
  let s := if consumed then s.setCluster cl ((s.cluster cl).freeFuture f s.now) else s
  s.tell cl f st value status (e.waiters.mapIdx fun i (w : Waiter × Bool) => (w.1, e.single && i != 0))

/-- An operation that moves a PENDING entry to a terminal state: whether it took effect, none for a stale handle. -/
def State.finishFuture (s : State) (f : Word) (st : FState) (value : Word) (status : BitVec 16) : Option (Bool × State) :=
  match (s.cluster (handleCluster f)).futRef f with
  | .live e => if e.state = .pending then some (true, s.settleFuture f e st value status) else some (false, s)
  | .spilled _ => some (false, s)
  | .stale => none

/-! ## Cancellation (12 R292, 19 R409) -/

/-- A pending-launch pool entry has left: an event of every cluster of the partition (19 R403). -/
def State.poolLeft (s : State) (p : Nat) : State :=
  (s.clustersOf p).foldl (fun s cl => s.setCluster cl { s.cluster cl with stallSince := s.now }) s

/-- FCAN's effect once the entry is CANCELLED: the notices leave, a pool entry goes, an engine command stops (12 R292). -/
def State.cancelEffects (s : State) (f : Word) : State :=
  let p := handlePart f
  let s := (s.clustersOf p).foldl
    (fun s cl => s.setCluster cl { s.cluster cl with cancels := (s.cluster cl).cancels ++ [f] }) s
  let k := s.part p
  let s := if k.pool.any (·.future == f) then (s.setPart p { k with pool := k.pool.filter (·.future != f) }).poolLeft p else s
  { s with commands := s.commands.map fun e => if e.2.future = f then (e.1, { e.2 with cancelled := true }) else e }

/-- Cancel a future: whether it took effect, none for a stale handle (12 R291). -/
def State.cancelFuture (s : State) (f : Word) : Option (Bool × State) :=
  match s.finishFuture f .cancelled 0 0 with
  | some (true, s) => some (true, s.cancelEffects f)
  | r => r

/-- Remove a task that runs no more: its descriptor, its frame, its CLS and its place in the run queue and the park area go
(12 R292, R298). -/
def State.removeTask (s : State) (cl n : Nat) : State :=
  let k := s.cluster cl
  match k.parked.find n, (k.tasks.find n).bind (·.clsCore) with
  | some th, some (c, _) =>
    let s := if th.ownLen = 0 then s else s.freeCls c th.ownOff th.ownLen
    (s.freeFrame th.frameAt).freeTask cl n
  | some th, none => (s.freeFrame th.frameAt).freeTask cl n
  | none, _ => s.freeTask cl n

/-- Whether FCAN removes a task: it is WAITING, QUEUED, FETCHING or READY, and not one that was preempted (12 R292, 17
R380). -/
def Task.removable (tk : Task) : Bool := tk.state != .running && tk.state != .parked && !tk.preempted

/-- One cancel notice at a cluster, in one serial step (19 R409). -/
def State.cancelNotice (s : State) (cl : Nat) : State :=
  let k := s.cluster cl
  match k.cancels with
  | [] => s
  | f :: rest =>
    let s := s.setCluster cl { k with cancels := rest }
    let s := match k.tasks.find? fun e => e.2.future == f && e.2.removable with
      | some (n, _) => s.removeTask cl n
      | none => s
    (k.tasks.filter fun e => e.2.linked && e.2.parent == f).foldl
      (fun s e => s.post e.2.future (.cancel e.2.future)) s

/-! ## Entry headers (02 R34, 07 R194, 19 R412, R413) -/

/-- The KIND codes of a header (02 R34). -/
def kindTask : Nat := 0

/-- KIND of a field gang. -/
def kindField : Nat := 1

/-- KIND of a die gang. -/
def kindDie : Nat := 2

/-- KIND of a handler. -/
def kindHandler : Nat := 3

/-- One header word, read as instruction fetch under a domain (07 R194; 05 R134): the address of the refused read
otherwise. It is always read at its home (log entry 105: DEDUCED, unsafe). -/
def State.headerWord (s : State) (p die dom va : Nat) : Except Nat Nat :=
  match nameOf va, regionFor s p die dom va with
  | .translated, .ok (some (_, _, r)) =>
    if !r.x then .error va
    else
      match if r.atom then (translate s p die (lineOf va) false).bind (·.allows false true) else linePage s p die (lineOf va) false,
        readHomeWord s p die va with
      | .ok _, .ok w => .ok w
      | _, _ => .error va
  | _, _ => .error va

/-- Whether the read of a header waits for the interface of its partition to reach RUN (15 R344). -/
def State.headerWaits (s : State) (p die dom ent : Nat) : Bool :=
  s.hostWaits p die (ent - 16) || s.hostWaits p die (ent - 8)
    || [ent - 16, ent - 8].any fun va => match regionFor s p die dom va with
      | .error .waits => true
      | _ => false

/-- The fields of a header's two words. -/
def headerFields (w0 w1 : Nat) : Header where
  kind := bitsOf w0 43 42
  prio := bitsOf w0 41 40
  xcount := bitsOf w0 39 34
  vcount := bitsOf w0 33 28
  rings := BitVec.ofNat 16 (bitsOf w0 27 12)
  barriers := BitVec.ofNat 4 (bitsOf w0 11 8)
  tpc := bitsOf w0 7 6
  torus := bitsOf w0 5 5 == 1
  tsframe := bitsOf w1 52 42
  clsscr := bitsOf w1 41 31
  gthreads := bitsOf w1 30 20

/-- Whether a header's fields are in range and its reserved bits zero (02 R34, R56). -/
def headerInRange (w0 w1 : Nat) (h : Header) : Bool :=
  let gang := h.kind == kindField || h.kind == kindDie
  bitsOf w0 4 0 == 0 && bitsOf w1 63 53 == 0 && bitsOf w1 19 0 == 0
    && decide (1 ≤ h.xcount) && decide (h.xcount ≤ 32) && decide (h.vcount ≤ 32)
    && (gang || h.barriers == 0) && (gang || h.tpc == 0) && decide (h.tsframe ≤ 1024) && decide (h.clsscr ≤ 1024)
    && (if gang then decide (1 ≤ h.gthreads) && decide (h.gthreads ≤ 1024) else h.gthreads == 0)
    && (h.kind != kindHandler || decide (11 ≤ h.xcount))

/-- The header of an entry of one of some kinds, or the STATUS and VALUE it fails with (19 R412). -/
def State.header (s : State) (p die dom ent : Nat) (kinds : List Nat) : Except (Nat × Nat) Header :=
  match s.headerWord p die dom (ent - 16), s.headerWord p die dom (ent - 8) with
  | .error a, _ => .error (0x0404, a)
  | _, .error a => .error (0x0404, a)
  | .ok w0, .ok w1 =>
    let h := headerFields w0 w1
    if bitsOf w0 63 48 ≠ 0x5A36 ∨ bitsOf w0 47 44 ≠ 1 then .error (0x0401, ent)
    else if !kinds.contains h.kind then .error (0x0402, ent)
    else if !headerInRange w0 w1 h then .error (0x0403, ent)
    else .ok h

/-! ## The task pool (02 R36, R37) -/

/-- KIND of a tile argument. -/
def tileKind (w : Word) : Nat := wbits w 63 62

/-- Length of a tile argument in 2 KiB units. -/
def tileUnits (w : Word) : Nat := wbits w 51 46 + 1

/-- Whether a tile argument breaks a rule of 02 R38 (19 R412, 0x0403). -/
def tileArgBad (tsframe : Nat) (w : Word) : Bool :=
  tileKind w != 0
    && (tileKind w == 3 || wbits w 45 45 != 0 || decide (tsframe < wbits w 61 52 + tileUnits w))

/-- The checks of a task's configuration when its frame is allocated: STATUS of the first that fails (19 R412, R413). -/
def State.frameFault (s : State) (cl : Nat) (tk : Task) (h : Header) : Option Nat :=
  if tk.tiles.any (tileArgBad h.tsframe) then some 0x0403
  else if s.clsLargest cl < h.clsscr then some 0x0407
  else if (s.cluster cl).frameUnits < h.tsframe then some 0x0408
  else none

/-- A task that its cluster poisons: its future takes the STATUS and VALUE, and its descriptor goes (19 R413). -/
def State.failTask (s : State) (cl n : Nat) (tk : Task) (status value ctr : Nat) : State :=
  ((s.removeTask cl n).post tk.future
    (.poisonVal tk.future (BitVec.ofNat 64 value) (BitVec.ofNat 16 status))).count tk.part ctr

/-- The header of a task with its checks: the STATUS and VALUE of the first that fails (19 R412, R413). -/
def State.taskHeader (s : State) (cl : Nat) (tk : Task) : Except (Nat × Nat) Header :=
  match s.header tk.part (dieOfCluster cl) tk.dom tk.entry [kindTask] with
  | .error e => .error e
  | .ok h =>
    match s.frameFault cl tk h with
    | some st => .error (st, tk.entry)
    | none => .ok h

/-- A task enters QUEUED. With PDEF its header gives the priority, and one that fails a check poisons it there (12 R285; 19
R413). -/
def State.enterQueued (s : State) (cl n : Nat) (tk : Task) : State :=
  let put (s : State) (tk : Task) : State :=
    let k := s.cluster cl
    s.setCluster cl { k with tasks := k.tasks.put n { tk with state := .queued, since := s.now } }
  if tk.pdef then
    match s.taskHeader cl tk with
    | .error (st, v) => s.failTask cl n tk st v ctrHdrfail
    | .ok h => put s { tk with prio := h.prio, level := h.prio }
  else put s tk

/-- A new descriptor of a cluster: QUEUED, or WAITING with a dependence count (02 R37). -/
def State.newTask (s : State) (cl : Nat) (tk : Task) : State :=
  let k := s.cluster cl
  let n := Map.firstFree k.tasks poolSize 0
  let s := s.setCluster cl { k with tasks := k.tasks.put n { tk with state := .waiting } }
  if tk.count = 0 then s.enterQueued cl n tk else s

/-- Whether an FDEC would bring a task with PDEF into its run queue while the read of its header waits (12 R285; 15
R344). -/
def State.fdecWaits (s : State) (f : Word) : Bool :=
  let cl := handleCluster f
  (match (s.cluster cl).futRef f with
    | .live e => e.state == .pending
    | _ => false)
  && (s.cluster cl).tasks.any fun e => e.2.future == f && e.2.state == .waiting && e.2.count == 1 && e.2.pdef
    && s.headerWaits e.2.part (dieOfCluster cl) e.2.dom e.2.entry

/-- FDEC at the owner, in one serial step (12 R294, R295): a stale one is dropped and counted, and one of a terminal entry changes
nothing (19 R408, R411). -/
def State.fdec (s : State) (f : Word) : State :=
  let cl := handleCluster f
  let k := s.cluster cl
  match k.futRef f with
  | .stale => s.count (handlePart f) ctrStalefdec
  | .spilled _ => s
  | .live fut =>
    if fut.state != .pending then s
    else
    match k.tasks.find? fun e => e.2.future == f && e.2.state == .waiting with
    | some (n, tk) =>
      let tk := { tk with count := tk.count - 1 }
      if tk.count = 0 then s.enterQueued cl n tk else s.setCluster cl { k with tasks := k.tasks.put n tk }
    | none => s

/-! ## Operations for other agents (02 R44) -/

/-- The handle of an operation. -/
def FutOp.handle : FutOp → Word
  | .resolve f _ _ | .poison f _ | .poisonVal f _ _ | .dec f | .cancel f => f

/-- Perform one operation at the owning cluster; one that finds a terminal or a stale entry changes nothing (19 R408). -/
def State.perform (s : State) (op : FutOp) : State :=
  match op with
  | .resolve f v st => ((s.finishFuture f .resolved v st).map (·.2)).getD s
  | .poison f st => ((s.finishFuture f .poisoned 0 st).map (·.2)).getD s
  | .poisonVal f v st => ((s.finishFuture f .poisoned v st).map (·.2)).getD s
  | .dec f => s.fdec f
  | .cancel f => ((s.cancelFuture f).map (·.2)).getD s

/-- Whether an operation waits for a host read that it needs. -/
def State.opWaits (s : State) : FutOp → Bool
  | .dec f => s.fdecWaits f
  | _ => false

/-- The number of an operation in a packet between nodes (log entry 18: DESIGN CHOICE, safe): 0 TOUCH, 1 TOUCH.Q, 2 FTEST,
3 RESOLVE, 4 POISON, 5 FCAN, 6 FREL, 7 FDEC, 8 the withdrawal of a touch, with VALUE and STATUS. -/
def FutOp.packetOp : FutOp → Nat × Word × BitVec 16
  | .resolve _ v st => (3, v, st)
  | .poison _ st => (4, 0, st)
  | .poisonVal _ v st => (4, v, st)
  | .dec _ => (7, 0, 0)
  | .cancel _ => (5, 0, 0)

/-- A future operation packet to the node of a handle (15 R330): VALUE, and STATUS with the operation above it. -/
def State.futurePacket (s : State) (src p tag : Nat) (f : Word) (op : Nat) (v : Word) (st : BitVec 16) : State :=
  s.emit (s.packet p 0x09 (endpoint s.pkg.node src) (endpoint (handleNode f) (7168 + handleCluster f)) 1 0 0 16 tag
    f.toNat (leBytes 8 v.toNat ++ leBytes 8 (op * 2 ^ 16 + st.toNat)))

/-- Perform the oldest posted operation of a cluster; one for another node leaves as a packet. -/
def State.performPosted (s : State) (cl : Nat) : State :=
  let k := s.cluster cl
  match k.posted with
  | [] => s
  | op :: rest =>
    let f := op.handle
    if handleNode f = s.pkg.node then
      if s.opWaits op then s else (s.setCluster cl { k with posted := rest }).perform op
    else
      let (n, v, st) := op.packetOp
      (s.setCluster cl { k with posted := rest }).futurePacket (7168 + cl) (handlePart f) 0 f n v st

/-- What a touch of a live handle finds (12 R289, R290). -/
inductive Touched where
  | answer (s : State) (st : FState) (value : Word) (status : BitVec 16)
  | pending (s : State)
  | stale (s : State)
  deriving DecidableEq, Repr

/-- A waiter record of another cluster or node takes room in the owner's park area, from which an image may go for it
(02 R47, 03 R78). Where neither the area nor its spill area has room, the record is kept all the same (log entry 106: DESIGN
CHOICE, unsafe). -/
def State.recordRoom (s : State) (cl : Nat) (q : Waiter) : State :=
  if q.cluster = some cl then s else (s.makeRoom cl 1 (s.cluster cl).parkOrder).getD s

/-- A TOUCH or TOUCH.Q at the owner: a terminal state, consuming a single-touch future unless a TOUCH traps; a waiter
record; or a stale handle, a refused refetch of a spill record included (19 R401). -/
def State.touchAt (s : State) (f : Word) (isQ : Bool) (q : Waiter) : Touched :=
  let cl := handleCluster f
  match (s.cluster cl).futRef f with
  | .stale => .stale s
  | .spilled r =>
    match s.refetch cl r with
    | some (s, v, st) =>
      .answer (if r.single then s.setCluster cl ((s.cluster cl).freeFuture f s.now) else s) .resolved v st
    | none => .stale (s.count (handlePart f) ctrSpillref)
  | .live e =>
    if e.state = .pending then
      let s := s.recordRoom cl q
      .pending (s.setCluster cl ((s.cluster cl).putFuture f { e with waiters := e.waiters ++ [(q, isQ)] }))
    else
      let consume := e.single && (isQ || e.state == .resolved)
      .answer (if consume then s.setCluster cl ((s.cluster cl).freeFuture f s.now) else s) e.state e.value e.status

/-- Withdraw the waiter records of a waiter (17 R366, R383; 03 R73). -/
def State.withdraw (s : State) (q : Waiter) (f : Word) : State :=
  let cl := handleCluster f
  let k := s.cluster cl
  match k.futRef f with
  | .live e => s.setCluster cl (k.putFuture f { e with waiters := e.waiters.filter (·.1 != q) })
  | _ => s

/-- Abandon the wait for an answer from another node. A read is forgotten, and its answer discarded on arrival. The waiter
record of a touch is withdrawn at its owner: until the answer, and for any other request, the thread waits on (17 R383; log
entry 89: DEDUCED, unsafe). -/
def State.abandonReply (s : State) (th : Thread) (o : Outstanding) : State × Thread :=
  let put (s : State) (x : Outstanding) : State := { s with outstanding := s.outstanding.map fun y => if y = o then x else y }
  if o.ptype = 0x03 then (put s { o with waiter := none }, { th with wait := .none })
  else if o.ptype = 0x09 ∧ o.recorded ∧ !o.withdrawn then
    ((put s { o with withdrawn := true }).futurePacket o.core o.part o.tag o.future 8 0 0, th)
  else (s, th)

/-- Abandon a thread's wait with no effect: its records go, and its instruction will run again (03 R73; 17 R383; 19 R400). A
touch whose wake message is on its way has been completed by it, and a store to a home waits on for its acknowledgement. -/
def State.abandon (s : State) (t : Nat) (th : Thread) : State × Thread :=
  let c := coreOfKey t
  match th.wait with
  | .touch f =>
    if s.wakes.any fun m => m.handle == f && m.waiters.any (·.1 == th.waiter t) then (s, th)
    else (s.withdraw (th.waiter t) f, { th with wait := .none })
  | .sem k _ => (s.setCore c { s.core c with semWait := (s.core c).semWait.filter (· != (t, k)) }, { th with wait := .none })
  | .home =>
    if s.homeOps.any fun o => o.waiter == th.waiter t && o.access.op != .load then (s, th)
    else ({ s with homeOps := s.homeOps.filter (·.waiter != th.waiter t) }, { th with wait := .none })
  | .reply tag =>
    match s.outstanding.find? fun o => o.core == c && o.tag == tag with
    | some o => s.abandonReply th o
    | none => (s, { th with wait := .none })
  | .alloc => (s.unstall (clusterOfCore c) t, { th with wait := .none })
  | _ => (s, { th with wait := .none })

/-- A thread that goes for good, or starts again elsewhere, leaves its waits: what it still would receive is discarded on
arrival. -/
def State.forget (s : State) (t : Nat) (th : Thread) : State :=
  let c := coreOfKey t
  let q := th.waiter t
  match th.wait with
  | .reply tag =>
    { s with outstanding := s.outstanding.map fun o => if o.core = c ∧ o.tag = tag then { o with waiter := none } else o }
  | .home => { s with homeOps := s.homeOps.filter (·.waiter != q) }
  | .touch f =>
    { s.withdraw q f with
      wakes := s.wakes.map fun m => if m.handle = f then { m with waiters := m.waiters.filter (·.1 != q) } else m }
  | _ => (s.abandon t th).1

/-! ## Operations of the machine -/

/-- Whether an engine command of a future still runs (12 R292). -/
def State.commandRuns (s : State) (f : Word) : Bool := s.commands.any fun e => e.2.future == f

/-- Whether an engine command produces a future of this node (12 R292). -/
def State.ofCommand (s : State) (f : Word) : Bool :=
  match (s.cluster (handleCluster f)).futRef f with
  | .live e => e.producer == .command
  | _ => false

/-- FUTURE_SPILL. -/
def execFutureSpill (cl : Nat) (s : State) : Out := .next (s.futureSpill cl)

/-- CANCEL_NOTICE. -/
def execCancelNotice (cl : Nat) (s : State) : Out := .next (s.cancelNotice cl)

/-- FREL at this node's table (12 R293): none for a PENDING entry or a stale handle. -/
def State.release (s : State) (f : Word) : Option (Bool × State) :=
  let cl := handleCluster f
  let k := s.cluster cl
  match k.futRef f with
  | .live e => if e.state = .pending then none else some (true, s.setCluster cl (k.freeFuture f s.now))
  | .spilled _ => some (true, s.setCluster cl (k.freeFuture f s.now))
  | .stale => none

/-- What an FTEST finds at this node's table: whether the entry is terminal; none for a stale handle, a refused refetch of
a spill record included (19 R401), with the state that has counted it. -/
def State.testAt (s : State) (f : Word) : State × Option Bool :=
  match (s.cluster (handleCluster f)).futRef f with
  | .live e => (s, some (e.state != .pending))
  | .spilled r =>
    match s.refetch (handleCluster f) r with
    | some (s, _, _) => (s, some true)
    | none => (s.count (handlePart f) ctrSpillref, none)
  | .stale => (s, none)

/-- FCAN of another node's request: of a running engine command the answer follows when its stores have performed (12
R292). -/
def State.remoteCancel (s : State) (f : Word) (k : Packet) : State :=
  let engine := s.ofCommand f
  match s.cancelFuture f with
  | none => s.answerNode f k.src k.tag (answerWord 6 false false 0) 0 0
  | some (took, s) =>
    if took && s.commandRuns f then
      { s with commands := s.commands.map fun e =>
        if e.2.future = f then (e.1, { e.2 with fcan := some (k.src, k.tag) }) else e }
    else s.answerNode f k.src k.tag (answerWord 2 false false 0) (if took then 0 else 1) (BitVec.ofNat 16 (bit (took && engine)))

/-- A future operation of another node (12 R282): the answer returns as a packet, with code 6 for a stale handle, 1 for a
recorded waiter, a terminal state's code, or 5 for an FTEST of a PENDING entry and for a withdrawn record; VALUE is the result
of an operation that has one. A waiter record answers later. -/
def State.remoteFuture (s : State) (k : Packet) : State :=
  let f := BitVec.ofNat 64 k.arg
  let value := BitVec.ofNat 64 (leNat (k.payload.take 8))
  let word := leNat ((k.payload.drop 8).take 8)
  let status := BitVec.ofNat 16 word
  let op := bitsOf word 63 16
  let say (s : State) (code : Nat) (v : Word) (st : BitVec 16) : State :=
    s.answerNode f k.src k.tag (answerWord code false false 0) v st
  let part := s.part (handlePart f)
  let result (o : Option (Bool × State)) : State :=
    match o with
    | some (took, s) => say s 2 (if took then 0 else 1) 0
    | none => say s 6 0 0
  if !part.live || part.job != k.job then say s 6 0 0
  else if op = 7 then s.fdec f
  else if op = 3 then result (s.finishFuture f .resolved value status)
  else if op = 4 then result (s.finishFuture f .poisoned value status)
  else if op = 5 then s.remoteCancel f k
  else if op = 6 then result (s.release f)
  else if op = 8 then
    match (s.cluster (handleCluster f)).futRef f with
    | .live e =>
      if e.waiters.any (·.1 == .node k.src k.tag) then say (s.withdraw (.node k.src k.tag) f) 5 0 0 else s
    | _ => s
  else if op = 2 then
    match s.testAt f with
    | (s, some terminal) => say s (if terminal then 2 else 5) 0 0
    | (s, none) => say s 6 0 0
  else
    match s.touchAt f (op == 1) (.node k.src k.tag) with
    | .answer s st v status => say s st.code v status
    | .pending s => say s 1 0 0
    | .stale s => say s 6 0 0

/-- A future operation at its endpoint: the scheduler of a present cluster of the partition (22 R461). -/
def State.futureAt (s : State) (p : Nat) (k : Packet) : State :=
  let loc := endLocal k.dest
  if 7168 ≤ loc ∧ s.ownsCluster p (loc - 7168) then s.remoteFuture k else s.refusePacket p k 0x0A

/-- FUTURE_OPERATION: the oldest posted operation of a cluster, or one that another node's packet brings. -/
def execFutureOperation (cl : Nat) (k : Option Packet) (s : State) : Out :=
  match k with
  | none => .next (s.performPosted cl)
  | some k =>
    let f := BitVec.ofNat 64 k.arg
    .next (if k.ptype = 0x09 ∧ cl = handleCluster f ∧ !s.fdecWaits f then
        s.fromGate k fun s => s.admitPacket k fun s p => s.futureAt p k
      else s)

/-- The state a code names; PENDING for any other. -/
def fstateOf (code : Nat) : FState :=
  if code = 2 then .resolved else if code = 3 then .poisoned else if code = 4 then .cancelled else .pending

/-- The owner has recorded a touch of another node's handle: its thread waits on, parked where its wait allows. -/
def State.recordTouch (s : State) (o : Outstanding) : State :=
  let put (s : State) (x : Outstanding) : State := { s with outstanding := s.outstanding.map fun y => if y = o then x else y }
  match o.waiter with
  | some (.slot t) =>
    match s.thread t with
    | some th =>
      match th.parks, th.task with
      | true, some (cl, n) =>
        let s := put s { o with recorded := true, waiter := some (.parked cl n) }
        if th.acc.isEmpty && th.deferred.isEmpty then s.park t th th.wait else s
      | _, _ => put s { o with recorded := true }
    | none => put s { o with recorded := true }
  | _ => put s { o with recorded := true }

/-- What an answer of another node gives one of its requests. -/
def nodeAnswer (o : Outstanding) (code : Nat) (value : Word) (status : BitVec 16) : Wait :=
  if code = 0 then .stale
  else if code = 6 then .refused 0
  else if o.withdrawn && code = 5 then .none
  else .answer (fstateOf code) value status

/-- The requests of a handle that its owner has recorded (02 R47). -/
def State.recordedFor (s : State) (f : Word) : List Outstanding :=
  s.outstanding.filter fun o => o.ptype == 0x09 && o.recorded && o.future == f

/-- The word of an answer packet. -/
def answerOf (k : Packet) : Nat := leNat ((k.payload.drop 16).take 8)

/-- Whether a wake message finds recorded every request that it serves: packets of class 1 may overtake one another. -/
def State.answerReady (s : State) (k : Packet) : Bool :=
  bitsOf (answerOf k) 8 8 == 0
    || decide (bitsOf (answerOf k) 63 32 ≤ (s.recordedFor (BitVec.ofNat 64 k.arg)).length)

/-- An answer or wake of another node for an outstanding request; a wake serves every recorded request of the handle. -/
def State.answered (s : State) (k : Packet) : State :=
  let word := answerOf k
  let code := word % 256
  let value := BitVec.ofNat 64 (leNat (k.payload.take 8))
  let status := BitVec.ofNat 16 (leNat ((k.payload.drop 8).take 8))
  match s.outstanding.find? fun o => o.tag == k.tag && o.ptype == 0x09 && o.core == endLocal k.dest with
  | none => s
  | some o =>
    if code = 1 then s.recordTouch o
    else
      let others := if bitsOf word 8 8 = 1 then (s.recordedFor (BitVec.ofNat 64 k.arg)).filter (· != o) else []
      let s := { s with outstanding := s.outstanding.filter fun x => x != o && !others.contains x }
      let give (s : State) (x : Outstanding) (code : Nat) : State :=
        match x.waiter with
        | some q => s.wake q (nodeAnswer x code value status)
        | none => s
      others.foldl (fun s x => give s x (if bitsOf word 9 9 = 1 then 0 else code)) (give s o code)

/-- FUTURE_ANSWER_OR_WAKE: one of the messages on their way in the package, or one of another node. -/
def execFutureAnswerOrWake (n : Nat) (k : Option Packet) (s : State) : Out :=
  match k with
  | some k =>
    .next (if k.ptype = 0x0A ∧ s.answerReady k then s.fromGate k fun s => s.admitPacket k fun s _ => s.answered k else s)
  | none =>
    match s.wakes[n]? with
    | none => .next s
    | some m =>
      .next (m.waiters.foldl (fun s w => s.wake w.1 (waitAnswer w.2 m.state m.value m.status))
        { s with wakes := s.wakes.eraseIdx n })

end Sys2Proof.Machine
end

