-- ==== Sys2Proof/Machine/Tasks.lean ====
section
/-!
DEFINITION. SPAWN, the future instructions, GLAUNCH, YIELD and TEXIT (spec/12 R282 to R298), with C.TOUCH.
-/

namespace Sys2Proof.Machine

/-! ## SPAWN (12 R284 to R288) -/

/-- ALIGN of an entry address (12 R286, R296; 18 R389). -/
def badEntry (ent : Word) : Bool := wbits ent 2 0 != 0 || wbits ent 63 56 != 0

/-- Entries that two pushes would spill (08 R205). -/
def Thread.spillsOfTwo (th : Thread) : Nat := bit (rsValid th.rs[7]) + bit (rsValid th.rs[6])

/-- Whether the return store and its spill area can take two more entries (12 R287). -/
def Thread.roomForTwo (th : Thread) : Bool :=
  th.spillsOfTwo == 0 || (th.ownLen != 0 && decide (th.spilld.toNat + th.spillsOfTwo ≤ 32))

/-- Whether a child's header lets it run inline on a thread (12 R287). -/
def inlineHeader (th : Thread) (w0 w1 : Nat) : Bool :=
  let h := headerFields w0 w1
  bitsOf w0 63 48 == 0x5A36 && h.kind == kindTask && h.tsframe == 0
    && (th.supervisor || (decide (h.xcount ≤ th.hdr.xcount) && decide (h.vcount ≤ th.hdr.vcount)
      && decide (h.clsscr ≤ th.hdr.clsscr) && h.rings &&& ~~~th.hdr.rings == 0))

/-- inline_ok (12 R287). -/
def State.inlineOk (s : State) (th : Thread) (ent c : Word) : Bool :=
  let die := dieOfCore (coreOfKey s.cur)
  wbits c 15 0 == 0 && (th.e.toList.take 4).all (fun w => wbits w 63 62 == 0) && th.roomForTwo
    && (match s.headerWord th.part die th.dom (ent.toNat - 16), s.headerWord th.part die th.dom (ent.toNat - 8) with
      | .ok w0, .ok w1 => inlineHeader th w0 w1
      | _, _ => false)

/-- inline() (12 R287): like a call, it ends only the loops that end at its successor (log entry 21: DEDUCED, unsafe). -/
def inlineRes (s : State) (th : Thread) (d : Reg) (ent : Word) : Res :=
  pushRes s th (rsEntry (th.after 4)) fun s th =>
    pushRes s th 1 fun s th =>
      let th := ((th.setX d 0 false).setX 7 0 false).setX 8 0 false
      .done (s.setThread s.cur (th.transfer 4 (ent.truncate 56) true))

/-- The descriptor that SPAWN writes (12 R286, 02 R36). -/
def spawnTask (th : Thread) (restart linked : Bool) (ent c f : Word) : Task where
  entry := ent.toNat
  args := (th.x.toList.drop 1).take 6
  tiles := th.e.toList.take 4
  prio := wbits c 17 16
  pdef := wbits c 18 18 == 1
  restart := restart
  linked := linked
  count := wbits c 15 0
  future := f
  parent := if th.kind = .task then th.future else 0
  dom := th.dom
  part := th.part
  state := .waiting
  frame := none
  hdr := none
  restarts := 0
  level := wbits c 17 16
  since := 0
  clsCore := none
  fetch := []
  fill := []
  preempted := false

/-- SPAWN (12 R286). With .i it finds room when the allocation would be served now, so that one that is inline_ok never stalls
(19 R400, R404). -/
def execSpawn (g : Guard) (inl restart linked single : Bool) (d a b : Reg) (s : State) : Out :=
  issue (.spawn g inl restart linked single d a b) s fun s th =>
    let ent := th.getX a
    let c := th.getX b
    let cl := clusterOfCore (coreOfKey s.cur)
    let die := dieOfCore (coreOfKey s.cur)
    let reads := (inl && !s.served cl th.part s.cur 1) || (wbits c 18 18 == 1 && wbits c 15 0 == 0)
    if badEntry ent then .trap .align ent 0
    else if reads && s.headerWaits th.part die th.dom ent.toNat then .settle
    else if inl && th.wait != .alloc && !s.served cl th.part s.cur 1 && s.inlineOk th ent c then inlineRes s th d ent
    else
      allocRes s th 1 single linked .task fun s th f =>
        let s := s.newTask cl (spawnTask th restart linked ent c f)
        .done (s.setThread s.cur ((th.setX d f false).next 4))

/-! ## Handles (12 R282) -/

/-- The checks of a handle at issue (12 R282). -/
def State.badHandle (s : State) (th : Thread) (f : Word) : Bool :=
  f == 0 || handlePart f != th.part || decide (384 ≤ handleCluster f)
    || (handleNode f == s.pkg.node && !s.pkg.present (handleCluster f))

/-- FUTBAD (18 R364). -/
def futbad (f : Word) : Res := .trap .futbad f 0

/-- Send a future operation to the node of a handle; the thread waits in its slot for the answer (12 R282, R283). A touch
that could park leaves nothing of its thread's accesses behind (17 R366). -/
def remoteFutureRes (s : State) (th : Thread) (f : Word) (op : Nat) (v : Word) (st : BitVec 16) (park : Bool) : Res :=
  let c := coreOfKey s.cur
  if park && !th.deferred.isEmpty then .deliver
  else if park && !th.acc.isEmpty then .settle
  else
    match s.freeTag c with
    | none => .settle
    | some tag =>
      let s := s.futurePacket c th.part tag f op v st
      let o : Outstanding := ⟨c, tag, th.part, 0x09, some (.slot s.cur), f, false, false⟩
      let s := { s with outstanding := s.outstanding ++ [o] }
      .done (s.setThread s.cur { th with wait := .reply tag })

/-- The operations that answer a code: RESOLVE, POISON, FCAN and FREL, by packet number, or at this node's table
(log entry 12: DEDUCED, unsafe). -/
def handleRes (s : State) (th : Thread) (f : Word) (op : Nat) (v : Word) (st : BitVec 16)
    (here : State → Option (Bool × State)) (done : State → Thread → Word → Res) : Res :=
  let th' := { th with wait := .none }
  match th.wait with
  | .answer _ r _ => done s th' r
  | .stale | .refused _ => futbad f
  | _ =>
    if s.badHandle th f then futbad f
    else if handleNode f ≠ s.pkg.node then remoteFutureRes s th f op v st false
    else
      match here s with
      | none => futbad f
      | some (took, s) =>
        match s.thread s.cur with
        | some th => done s { th with wait := .none } (if took then 0 else 1)
        | none => .done s

/-- X[D] ← r, its taint clear, and the next instruction. -/
def resultCode (d : Reg) (s : State) (th : Thread) (r : Word) : Res :=
  .done (s.setThread s.cur ((th.setX d r false).next 4))

/-- RESOLVE (12 R291). -/
def execResolve (g : Guard) (d a b : Reg) (s : State) : Out :=
  issue (.resolve g d a b) s fun s th =>
    let f := th.getX a
    handleRes s th f 3 (th.getX b) 0 (fun s => s.finishFuture f .resolved (th.getX b) 0) (resultCode d)

/-- The STATUS that POISON writes (12 R291). -/
def poisonStatus (w : Word) : BitVec 16 := if wbits w 15 0 = 0 then 1 else BitVec.ofNat 16 (wbits w 15 0)

/-- POISON (12 R291). -/
def execPoison (g : Guard) (d a b : Reg) (s : State) : Out :=
  issue (.poison g d a b) s fun s th =>
    let f := th.getX a
    let st := poisonStatus (th.getX b)
    handleRes s th f 4 0 st (fun s => s.finishFuture f .poisoned 0 st) (resultCode d)

/-- FCAN's wait for a command of an engine: while one of its stores has not performed (12 R292). -/
def State.cancelWaits (s : State) (f : Word) : Bool := handleNode f == s.pkg.node && s.commandRuns f

/-- FCAN (12 R291, R292). Of an engine command it completes when the command has stopped with its stores performed, which it
acquires at .s; an answer tells so by its status (log entry 68: DEDUCED, safe). -/
def execFcan (g : Guard) (d a : Reg) (s : State) : Out :=
  issue (.fcan g d a) s fun s th =>
    let f := th.getX a
    match th.wait with
    | .answer _ r status =>
      if r = 0 ∧ status = 1 then
        if s.cancelWaits f then .done (s.markBusy s.cur)
        else resultCode d (s.acquire (coreOfKey s.cur) .s) { th with wait := .none } r
      else resultCode d s { th with wait := .none } r
    | _ =>
      let engine := s.ofCommand f
      handleRes s th f 5 0 0 (fun s => s.cancelFuture f) fun s th r =>
        if r = 0 ∧ engine then .done (s.setThread s.cur { th with wait := .answer .cancelled 0 1 })
        else resultCode d s th r

/-- FREL (12 R293). -/
def execFrel (g : Guard) (a : Reg) (s : State) : Out :=
  issue (.frel g a) s fun s th =>
    let f := th.getX a
    handleRes s th f 6 0 0 (fun s => s.release f) fun s th _ => .done (s.setThread s.cur (th.next 4))

/-- FDEC (12 R294, R295): posted. -/
def execFdec (g : Guard) (a : Reg) (s : State) : Out :=
  issue (.fdec g a) s fun s th =>
    let f := th.getX a
    if s.badHandle th f then futbad f
    else
      let s := if handleNode f = s.pkg.node then s.post f (.dec f)
        else s.futurePacket (7168 + clusterOfCore (coreOfKey s.cur)) th.part 0 f 7 0 0
      .done (s.setThread s.cur (th.next 4))

/-- The end of an FTEST (12 R289): a terminal state makes it an acquire at .s. -/
def ftestDone (pd : Reg8) (s : State) (th : Thread) (terminal : Bool) : Res :=
  let s := if terminal then s.acquire (coreOfKey s.cur) .s else s
  .done (s.setThread s.cur (({ th with wait := .none }.setP pd terminal).next 4))

/-- FTEST (12 R289). -/
def execFtest (g : Guard) (pd : Reg8) (a : Reg) (s : State) : Out :=
  issue (.ftest g pd a) s fun s th =>
    let f := th.getX a
    match th.wait with
    | .answer st _ _ => ftestDone pd s th (st != .pending)
    | .stale | .refused _ => futbad f
    | _ =>
      if s.badHandle th f then futbad f
      else if handleNode f ≠ s.pkg.node then remoteFutureRes s th f 2 0 0 false
      else
        match s.testAt f with
        | (s, some terminal) => ftestDone pd s th terminal
        | (s, none) => .trapIn s .futbad f 0

/-! ## TOUCH and TOUCH.Q (12 R289, R290; 19 R407) -/

/-- TOUCH or TOUCH.Q: `done` receives the terminal state, `gone` a stale answer. -/
def touchRes (s : State) (th : Thread) (f : Word) (isQ : Bool)
    (done : State → Thread → FState → Word → BitVec 16 → Res) (gone : State → Thread → Res) : Res :=
  let th' := { th with wait := .none }
  match th.wait with
  | .answer st v status => done s th' st v status
  | .stale => gone s th'
  | .refused _ => futbad f
  | _ =>
    if s.badHandle th f then futbad f
    else if handleNode f ≠ s.pkg.node then remoteFutureRes s th f (bit isQ) 0 0 th.parks
    else
      match s.touchAt f isQ (th.waiter s.cur) with
      | .answer s st v status => done s th' st v status
      | .pending s => blockRes s th (.touch f)
      | .stale s => .trapIn s .futbad f 0

/-- The end of a TOUCH (12 R289). One that traps acquires nothing (log entry 94: DEDUCED, safe). -/
def touchDone (i : Instr) (d : Reg) (f : Word) (s : State) (th : Thread) (st : FState) (v : Word) (status : BitVec 16) :
    Res :=
  match st with
  | .poisoned => .trap .futpoison f (status.zeroExtend 64)
  | .cancelled => .trap .futcancel f 0
  | _ =>
    let s := s.acquire (coreOfKey s.cur) .s
    .done (s.setThread s.cur ((th.setX d v false).next i.len))

/-- A TOUCH in full. -/
def plainTouch (i : Instr) (d a : Reg) (s : State) : Out :=
  issue i s fun s th =>
    let f := th.getX a
    touchRes s th f false (touchDone i d f) fun _ _ => futbad f

/-- TOUCH (12 R289). -/
def execTouch (g : Guard) (d a : Reg) (s : State) : Out := plainTouch (.touch g d a) d a s

/-- C.TOUCH (07 R171). -/
def execCTouch (d a : Reg) (s : State) : Out := plainTouch (.cTouch d a) d a s

/-- X[D] and X[D+1] of a TOUCH.Q. -/
def Thread.setQ (th : Thread) (d : Reg) (v w : Word) : Thread := (th.setX d v false).setX (regNat (d.val + 1)) w false

/-- The code word of a TOUCH.Q (12 R289). -/
def touchWord (st : FState) (status : BitVec 16) : Word := BitVec.ofNat 64 (st.code * 2 ^ 16 + status.toNat)

/-- TOUCH.Q (12 R289, 19 R407). -/
def execTouchQ (g : Guard) (d a : Reg) (s : State) : Out :=
  issue (.touchQ g d a) s fun s th =>
    let f := th.getX a
    touchRes s th f true
      (fun s th st v status =>
        let s := s.acquire (coreOfKey s.cur) .s
        .done (s.setThread s.cur ((th.setQ d v (touchWord st status)).next 4)))
      fun s th => .done (s.setThread s.cur ((th.setQ d 0 0xFFFF).next 4))

/-! ## GLAUNCH (12 R296) -/

/-- The sequence number of the next entry of a pending-launch pool. -/
def Part.poolSeq (k : Part) : Nat := (k.pool.map (·.seq + 1)).foldl Nat.max 0

/-- GLAUNCH (12 R296). -/
def execGlaunch (g : Guard) (d a b : Reg) (s : State) : Out :=
  issue (.glaunch g d a b) s fun s th =>
    let ent := th.getX a
    let c := th.getX b
    if wbits c 63 56 ≠ 2 ∧ wbits c 63 56 ≠ 3 then .trap .queue c 0
    else if badEntry ent then .trap .align ent 0
    else
      allocRes s th 2 false false .gang fun s th f =>
        let k := s.part th.part
        let e : PoolEntry := ⟨ent.toNat, c, (th.x.toList.drop 1).take 6, th.dom, f, k.poolSeq, s.now⟩
        let s := s.setPart th.part { k with pool := k.pool ++ [e] }
        .done (s.setThread s.cur ((th.setX d f false).next 4))

/-! ## YIELD and TEXIT (12 R297, R298) -/

/-- A parked task re-enters the run queue at the tail of the back band of its running level (12 R297). -/
def State.requeue (s : State) (cl n level : Nat) : State :=
  let k := s.cluster cl
  match k.parked.find n, k.tasks.find n with
  | some th, some tk =>
    let k := { k with
      parked := k.parked.put n { th with wait := .woken }
      tasks := k.tasks.put n { tk with state := .ready } }
    s.setCluster cl (k.enqueue n level s.now false)
  | _, _ => s

/-- YIELD (12 R297). Without park room the thread waits in its slot (19 R402). -/
def execYield (g : Guard) (s : State) : Out :=
  issue (.yield g) s fun s th =>
    match th.parks, th.task, th.wait with
    | true, some _, .woken => .done (s.setThread s.cur ({ th with wait := .none }.next 4))
    | true, some (cl, n), _ =>
      match blockRes s th .yielded with
      | .done s => .done (s.requeue cl n th.level)
      | r => r
    | _, _, _ => .done (s.setThread s.cur (th.next 4))

/-- The return stack below the sentinel of an inline SPAWN, `fuel` entries searched from the most recent (12 R298): none
when no entry of it is the sentinel. -/
def State.belowSentinel (s : State) (th : Thread) : Nat → Option Thread
  | 0 => none
  | fuel + 1 =>
    if rsValid th.rs[0] then
      let t := { th with rs := rsPop th.rs }
      if isSentinel th.rs[0] then some t else s.belowSentinel t fuel
    else if th.spilld = 0 then none
    else
      let t := { th with spilld := th.spilld - 1 }
      if isSentinel (s.spillSlot th (th.spilld.toNat - 1)) then some t else s.belowSentinel t fuel

/-- The value of TEXIT (12 R298). -/
def Thread.exitValue (th : Thread) : Word := if th.supervisor || decide (2 ≤ th.hdr.xcount) then th.getX 1 else 0

/-- End the thread of the current slot by TEXIT (12 R298; 17 R375 in a handler). -/
def State.exit (s : State) (t : Nat) (th : Thread) : State :=
  match th.bottom with
  | some f => s.endThread t th f.kind (f.ownOff, f.ownLen) fun h => .poison h (BitVec.ofNat 16 (0x0100 + f.cause.code))
  | none => s.endThread t th th.kind (th.ownOff, th.ownLen) fun h => .resolve h th.exitValue 0

/-- TEXIT (12 R298): the return of an inline child, or the end of the thread. Its search of the spill area waits as a refill
of each slot would (05 R123). -/
def execTexit (g : Guard) (s : State) : Out :=
  issue (.texit g) s fun s th =>
    if th.slotWaits 0 th.spilld.toNat then .settle
    else
      match s.belowSentinel th 41 with
      | some th' => popRes s th' fun a th => .done (s.setThread s.cur (th.transfer 4 a false))
      | none =>
        if th.completeAt .s then
          let (s, th) := s.flushUnit s.cur th
          .done (s.exit s.cur th)
        else .settle

end Sys2Proof.Machine
end

