-- ==== Sys2Proof/Machine/Sched.lean ====
section
/-!
DEFINITION. The cluster scheduler: dispatch, frames and tile arguments, ageing, stealing, migration arrivals, the
exhaustion detector and the free-resource reports (spec/02 R37 to R40, R49, R61; spec/03 R71, R76 to R81; spec/19 R402,
R403, R409, R412, R413).
-/

namespace Sys2Proof.Machine

/-! ## Held threads (19 R402) -/

/-- Whether a task thread waits in its slot only because neither park area had room. -/
def State.holdsForRoom (s : State) (t : Nat) (th : Thread) : Bool :=
  th.parks && th.acc.isEmpty && th.deferred.isEmpty && th.trap.isNone
    && (match th.wait with
      | .touch _ | .ring .. | .watch _ | .home | .yielded => true
      | .reply tag =>
        s.outstanding.any fun o => o.core == coreOfKey t && o.tag == tag && o.waiter == some (th.waiter t)
      | _ => false)

/-- Park a held thread when room has appeared. -/
def State.parkHeldSlot (s : State) (t : Nat) : State :=
  match s.thread t with
  | some th =>
    match th.task with
    | some (cl, n) =>
      if s.holdsForRoom t th && (s.parkRoom cl th).isSome then
        let s := s.park t th th.wait
        if th.wait = .yielded then s.requeue cl n th.level else s
      else s
    | none => s
  | none => s

/-- Park every held thread of a cluster that room has appeared for. -/
def State.parkHeld (s : State) (cl : Nat) : State := (clusterSlots cl).foldl (fun s t => s.parkHeldSlot t) s

/-! ## Dispatch (02 R39, R49, R61; 03 R77) -/

/-- The entries of a run queue in the order of 02 R49: level 3 first, in a level the front band first. -/
def Cluster.dispatchOrder (k : Cluster) : List RqEntry :=
  [3, 2, 1, 0].flatMap fun l =>
    (k.runq.filter fun e => e.level == l && e.front) ++ k.runq.filter fun e => e.level == l && !e.front

/-- The core a task must run on because it keeps CLS there, and the CLS it still needs (03 R77). -/
def Cluster.needs (k : Cluster) (n : Nat) (tk : Task) : Option Nat × Nat :=
  match k.parked.find n with
  | some th =>
    if th.hdr.clsscr = 0 then (none, 0)
    else
      match tk.clsCore with
      | some (c, _) => (some c, 0)
      | none => (none, th.hdr.clsscr)
  | none => (none, (tk.hdr.map (·.clsscr)).getD 0)

/-- Whether a slot that is or becomes empty can take a task: a core whose free CLS has no run of the length that the task needs is
passed over (03 R77; log entry 22: DESIGN CHOICE, unsafe). -/
def State.suits (s : State) (t : Nat) (need : Option Nat × Nat) : Bool :=
  let c := coreOfKey t
  !s.gangKeeps t && !s.isHandlerSlot t && (need.1.map (· == c)).getD true && (s.clsFit c need.2).isSome

/-- The slot an entry is dispatched to: the lowest core, then the lowest slot. -/
def State.slotFor (s : State) (cl : Nat) (e : RqEntry) : Option Nat :=
  let k := s.cluster cl
  match k.tasks.find e.task with
  | some tk => (clusterSlots cl).find? fun t => s.slotEmpty t && s.suits t (k.needs e.task tk)
  | none => none

/-- The thread of a task at its first instruction (02 R39)
(log entry 64: DEDUCED, unsafe). -/
def firstThread (cl n : Nat) (tk : Task) (h : Header) : Thread :=
  let th := Thread.fresh (BitVec.ofNat 56 tk.entry) .task tk.part tk.dom h
  let base := (tk.frame.map (frameAddress cl)).getD 0
  { th with
    x := entryRegs h.xcount tk.args base tk.future, frameBase := base, homeCluster := cl, future := tk.future
    task := some (cl, n), frameAt := tk.frame.map fun u => (cl, u) }

/-- The thread of a run-queue entry, with the place of a granule of its image that came poisoned: a parked context, reloaded
from its image, past the RLD or RST whose access was refused while it was parked (17 R366), or a task's first. None while the read of a spilled image is refused, or waits for the host (03 R78, 15 R344). -/
def State.entryThread (s : State) (cl n : Nat) (tk : Task) : Option (State × Thread × Option Nat) :=
  match (s.cluster cl).parked.find n, tk.hdr with
  | some th, _ =>
    if s.imageWaits cl n then none
    else
      (s.parkedImage cl n).map fun x =>
        let u := { th.loadImage x.2.1 th.hdr.xcount th.hdr.vcount with task := some (cl, n) }
        (x.1, if th.deferred.isEmpty then u else u.next 4, x.2.2)
  | none, some h => some (s, firstThread cl n tk h, none)
  | none, none => none

/-- Dispatch an entry into a slot; the dispatch is an acquire at least at .k (02 R40, 03 R81, 12 R297). -/
def State.dispatchInto (s : State) (cl t : Nat) (e : RqEntry) : State :=
  match (s.cluster cl).tasks.find e.task with
  | none => s
  | some tk =>
    match s.entryThread cl e.task tk with
    | none => s
    | some (s, th, bad) =>
      let c := coreOfKey t
      let len := ((s.cluster cl).needs e.task tk).2
      let off := (s.clsFit c len).getD 0
      let th := if len = 0 then th else { th with spanOff := off, spanLen := len, ownOff := off, ownLen := len }
      let clsCore := if len = 0 then tk.clsCore else some (c, off)
      let s := if len = 0 then s else s.freshCls c off len
      let k := s.cluster cl
      let s := s.setCluster cl { k.unpark e.task with
        tasks := k.tasks.put e.task { tk with state := .running, clsCore := clsCore, preempted := false }
        runq := k.runq.filter (·.task != e.task), stallSince := s.now }
      let s := s.setThread t { th with level := e.level, dispatched := s.now, held := s.now }
      let s := (s.acquire c .d).wakeCore c
      match bad with
      | some pa => s.consume c pa
      | none => s

/-- DISPATCH: the first entry, in order, that an empty slot can take (03 R77). -/
def State.dispatchOne (s : State) (cl : Nat) : State :=
  match (s.cluster cl).dispatchOrder.find? fun e => (s.slotFor cl e).isSome with
  | some e =>
    match s.slotFor cl e with
    | some t => s.dispatchInto cl t e
    | none => s
  | none => s

/-- DISPATCH, before which held threads park where they can. -/
def execDispatch (cl : Nat) (s : State) : Out := .next ((s.parkHeld cl).dispatchOne cl)

/-! ## Frames (03 R76) and tile arguments (02 R38) -/

/-- Whether a QUEUED task goes before another: the higher level, then the longer wait (03 R76). -/
def queuedBefore (a b : Nat × Task) : Bool :=
  decide (b.2.level < a.2.level) || (a.2.level == b.2.level && (decide (a.2.since < b.2.since)
    || (a.2.since == b.2.since && decide (a.1 < b.1))))

/-- The QUEUED task that is first in dispatch order (03 R76). -/
def Cluster.queuedHead (k : Cluster) : Option (Nat × Task) :=
  (k.tasks.filter fun e => e.2.state == .queued).foldl
    (fun m e => match m with
      | none => some e
      | some b => if queuedBefore e b then some e else m) none

/-- Whether a future of this node is CANCELLED. -/
def State.isCancelled (s : State) (f : Word) : Bool :=
  match (s.cluster (handleCluster f)).futRef f with
  | .live e => e.state == .cancelled
  | _ => false

/-- A task becomes READY: it joins the back band of its level (02 R49). -/
def State.becomeReady (s : State) (cl n : Nat) (tk : Task) : State :=
  let k := s.cluster cl
  s.setCluster cl
    ({ k with tasks := k.tasks.put n { tk with state := .ready } }.enqueue n tk.level s.now false)

/-- The first address of a tile argument's source outside translated memory (02 R38). -/
def tileOutside (src len : Nat) : Option Nat :=
  if src + len ≤ tileBase then none else some (Nat.max src tileBase)

/-- The lines that the tile copier moves for the IN arguments of a task, in order: source address and place. One that reaches
outside translated memory stands as that address alone, whose read is refused before a byte of it moves (02 R38). -/
def tileLines (cl unit : Nat) (tiles : List Word) : List (Nat × Nat) :=
  (tiles.filter fun w => tileKind w == 1).flatMap fun w =>
    let src := wbits w 44 0 * 2048
    let at_ := tilePlace cl ((unit + wbits w 61 52) * 2048)
    match tileOutside src (tileUnits w * 2048) with
    | some a => [(a, at_)]
    | none => (List.range (tileUnits w * 32)).map fun i => (src + 64 * i, at_ + 64 * i)

/-- The queries of a task's own future and of a linked task's parent, before it leaves QUEUED (19 R409): when either is
CANCELLED the task goes, and a linked task's future is cancelled as by FCAN. -/
def State.cancelledTask (s : State) (cl n : Nat) (tk : Task) : Option State :=
  if s.isCancelled tk.future then some (s.removeTask cl n)
  else if tk.linked && tk.parent != 0 && s.isCancelled tk.parent then
    some ((s.removeTask cl n).post tk.future (.cancel tk.future))
  else none

/-- A task that has its header takes its frame and begins to fetch (02 R37, 03 R76): without a tile argument and a frame it is
READY at once. -/
def State.takeFrame (s : State) (cl n : Nat) (tk : Task) (h : Header) : State :=
  let k := s.cluster cl
  if h.tsframe = 0 then s.becomeReady cl n { tk with hdr := some h, frame := none }
  else
    match k.frameFit h.tsframe with
    | none => s
    | some u =>
      s.setCluster cl { k with
        tasks := k.tasks.put n { tk with
          hdr := some h, frame := some u, state := .fetching, fetch := tileLines cl u tk.tiles, fill := [] }
        frames := k.frames ++ [(u, h.tsframe)] }

/-- FRAME_ALLOCATION for the head QUEUED task: the cancellation query (19 R409), the header and its checks (19 R413), and
the frame (03 R76). -/
def State.allocateFrame (s : State) (cl : Nat) : State :=
  let k := s.cluster cl
  match k.queuedHead with
  | none => s
  | some (n, tk) =>
    if 16 ≤ (k.tasks.filter fun e => e.2.state == .fetching).length then s
    else
      match s.cancelledTask cl n tk with
      | some s => s
      | none =>
        if s.headerWaits tk.part (dieOfCluster cl) tk.dom tk.entry then s
        else
          match s.taskHeader cl tk with
          | .error (st, v) => s.failTask cl n tk st v ctrHdrfail
          | .ok h => s.takeFrame cl n tk h

/-- FRAME_ALLOCATION. -/
def execFrameAllocation (cl : Nat) (s : State) : Out := .next (s.allocateFrame cl)

/-- A read inside one line by the tile copier or the distributor, of 16 bytes on an ATOM page and up to the end of the line
elsewhere (04 R112; 05 R118): none when it is refused, which S2REF counts where stage 2 does, or meets poison (20 R429; 21
R441). -/
def State.cleanRead (s : State) (p die va : Nat) : State × Option (List Byte) :=
  match nameOf va with
  | .translated =>
    match s.serviceLoad p die va with
    | .ok (s, bs, bad) => (s, if bad then none else some bs)
    | .error r => (s.s2refusal p va r, none)
  | _ => (s, none)

/-- The task whose fetch the tile copier is at: the first in the order in which frames were allocated that has lines left
(03 R76). -/
def Cluster.fetching (k : Cluster) : Option Nat :=
  (k.frames.filterMap fun f => (k.tasks.find? fun e =>
    e.2.frame == some f.1 && e.2.state == .fetching && !e.2.fetch.isEmpty).map (·.1)).head?

/-- The tile copier loads the next line of a task: a read that is refused poisons the task (19 R413). -/
def State.tileLoad (s : State) (cl n : Nat) (tk : Task) : State :=
  match tk.fetch with
  | [] => s
  | (va, at_) :: rest =>
    if s.hostWaits tk.part (dieOfCluster cl) va then s
    else
      match s.cleanRead tk.part (dieOfCluster cl) va with
      | (s, none) => s.failTask cl n tk 0x0405 va ctrTilefail
      | (s, some bs) =>
        let left := if va % 64 + bs.length < 64 then (va + bs.length, at_ + bs.length) :: rest else rest
        let k := s.cluster cl
        s.setCluster cl { k with tasks := k.tasks.put n { tk with fetch := left, fill := tk.fill ++ [(at_, bs)] } }

/-- The tile copier stores one of the lines that it has loaded. -/
def State.tileStore (s : State) (cl n : Nat) (tk : Task) (i : Nat) : State :=
  match tk.fill[i]? with
  | none => s
  | some (at_, bs) =>
    let s := s.storePlace at_ bs
    let k := s.cluster cl
    s.setCluster cl { k with tasks := k.tasks.put n { tk with fill := tk.fill.eraseIdx i } }

/-- A step of a task's tile fetch: the copier loads the next line or stores one that it has loaded, which of the two is free,
and the task is READY when every line is resident (02 R37, R38; 03 R76; 05 R116)
(log entry 66: DEDUCED, unsafe). -/
def State.tileFetch (s : State) (cl n : Nat) : State :=
  match (s.cluster cl).tasks.find n with
  | some tk =>
    if tk.state != .fetching then s
    else if tk.fetch.isEmpty && tk.fill.isEmpty then s.becomeReady cl n tk
    else
      let (w, s) := s.takeFree
      if tk.fill.isEmpty || (!tk.fetch.isEmpty && w.getLsbD 0) then
        if (s.cluster cl).fetching = some n then s.tileLoad cl n tk else s
      else s.tileStore cl n tk (w.toNat / 2 % tk.fill.length)
  | none => s

/-- TILE_FETCH_COMPLETION. -/
def execTileFetchCompletion (cl tk : Nat) (s : State) : Out := .next (s.tileFetch cl tk)

/-! ## Ageing (02 R61) -/

/-- Cycles of waiting after which an entry rises. -/
def ageCycles : Nat := 16384

/-- RUN_QUEUE_AGEING of one task of a cluster, QUEUED or in its run queue (02 R61, 03 R76). -/
def State.age (s : State) (cl n : Nat) : State :=
  let k := s.cluster cl
  match k.runq.find? (·.task == n) with
  | some e =>
    if e.since + ageCycles ≤ s.now ∧ (e.level < 3 ∨ e.front = false) then
      s.setCluster cl { k with
        runq := k.runq.filter (·.task != n) ++ [⟨n, Nat.min 3 (e.level + 1), true, s.now, e.joined⟩] }
    else s
  | none =>
    match k.tasks.find n with
    | some tk =>
      if tk.state = .queued ∧ tk.since + ageCycles ≤ s.now ∧ tk.level < 3 then
        s.setCluster cl { k with tasks := k.tasks.put n { tk with level := tk.level + 1, since := s.now } }
      else s
    | none => s

/-- RUN_QUEUE_AGEING. -/
def execRunQueueAgeing (cl n : Nat) (s : State) : Out := .next (s.age cl n)

/-! ## Stealing (03 R79) -/

/-- Whether a cluster's scheduler is idle (03 R79): a slot that runs only handlers is no slot for a task
(log entry 95: DEDUCED, safe). -/
def State.idleCluster (s : State) (cl : Nat) : Bool :=
  let k := s.cluster cl
  s.pkg.present cl && k.runq.isEmpty && !k.tasks.any (fun e => e.2.state == .fetching) && (clusterSlots cl).any s.slotOpen

/-- The cluster of a list that reported the most QUEUED tasks, and on a tie the lowest. -/
def Dist.mostQueued (d : Dist) (cls : List Nat) : Option Nat :=
  (cls.foldl (fun m cl =>
    let q := ((d.views.find cl).map (·.queued)).getD 0
    match m with
    | some (b, _) => if b < q then some (q, cl) else m
    | none => if 0 < q then some (q, cl) else none) none).map (·.2)

/-- The cluster a thief asks: of its field first, then of its die within its partition. -/
def State.victim (s : State) (cl : Nat) : Option Nat :=
  let f := granuleOfCluster cl
  let p := s.clusterPart cl
  let others (l : List Nat) : List Nat := l.filter fun c => c != cl && s.ownsCluster p c
  match s.dist.mostQueued (others ((List.range 16).map (f * 16 + ·))) with
  | some c => some c
  | none => s.dist.mostQueued (others ((List.range 64).map (dieOfCluster cl * 64 + ·)))

/-- WORK_STEAL: the victim's oldest QUEUED task at its highest level moves, with its level and age (03 R79). -/
def State.steal (s : State) (cl : Nat) : State :=
  let k := s.cluster cl
  if s.idleCluster cl && decide (k.lastSteal + 64 ≤ s.now) then
    let s := s.setCluster cl { k with lastSteal := s.now }
    match s.victim cl with
    | none => s
    | some v =>
      match (s.cluster v).queuedHead with
      | some (n, tk) =>
        if decide (k.tasks.length < poolSize) && s.noneOwed cl (s.clusterPart cl) then
          let s := s.setCluster v { s.cluster v with tasks := (s.cluster v).tasks.erase n, stallSince := s.now }
          let k := s.cluster cl
          s.setCluster cl { k with tasks := k.tasks.put (Map.firstFree k.tasks poolSize 0) tk }
        else s
      | none => s
  else s

/-- WORK_STEAL. -/
def execWorkSteal (cl : Nat) (s : State) : Out := .next (s.steal cl)

/-! ## Migration (03 R81) -/

/-- Free records of a core's receive queue (02 R55). -/
def Core.rxFree (k : Core) : Nat := 32 - (k.rx.map (·.size)).foldl (· + ·) 0

/-- Whether a field's reserved handler slot takes messages (02 R54, R57). -/
def State.fieldServes (s : State) (f : Nat) : Bool :=
  match s.reservedHandler f with
  | some c => !(s.core c).killed && !s.gangKeeps (c * 4 + 3)
  | none => false

/-- The core of the serving handler slot of a partition on a die whose receive queue has the most free records, and on a
tie of the lowest field (02 R57). -/
def State.diePlace (s : State) (p die : Nat) : Option Nat :=
  let fields := ((List.range 4).map (die * 4 + ·)).filter fun f => (s.part p).granules.contains f && s.fieldServes f
  (fields.foldl (fun m f =>
    match s.reservedHandler f with
    | some c =>
      let free := (s.core c).rxFree
      match m with
      | some (b, _) => if b < free then some (free, c) else m
      | none => some (free, c)
    | none => m) none).map (·.2)

/-- A migrating context arrives at the cluster of the die's chosen slot: its descriptor moves there, its frame stays (03
R81; log entry 23: DEDUCED, unsafe). Without room it stays on its way. -/
def State.arrive (s : State) (n : Nat) : State :=
  match s.transit[n]? with
  | none => s
  | some m =>
    match s.diePlace m.thread.part m.die, m.thread.task with
    | some c, some (old, on) =>
      let cl := clusterOfCore c
      match s.parkRoom cl m.thread, (s.cluster old).tasks.find on with
      | some s', some tk =>
        if decide ((s.cluster cl).tasks.length < poolSize) && s.noneOwed cl m.thread.part then
          let s := s'.setCluster old { s'.cluster old with tasks := (s'.cluster old).tasks.erase on, stallSince := s.now }
          let k := s.cluster cl
          let j := Map.firstFree k.tasks poolSize 0
          let th := { m.thread with task := some (cl, j), spanOff := 0, spanLen := 0, ownOff := 0, ownLen := 0 }
          let tk := { tk with state := .ready, frame := none, clsCore := none }
          let s := (s.setCluster cl { k with tasks := k.tasks.put j tk }).parkAs cl j th .none
          { s.setCluster cl ((s.cluster cl).enqueue j th.level s.now true) with transit := s.transit.eraseIdx n }
        else s
      | _, _ => s
    | _, _ => s

/-- MIGRATION_ARRIVAL. -/
def execMigrationArrival (n : Nat) (s : State) : Out := .next (s.arrive n)

/-! ## The exhaustion detector (19 R403) -/

/-- Whether a slot is empty, waiting or held by an allocation-stalled thread. -/
def State.quiet (s : State) (t : Nat) : Bool :=
  match s.thread t with
  | none => true
  | some th =>
    th.wait == .alloc || s.waits t th

/-- The cycle in which the detector's present window began: the last event of 19 R403, the first of the stalls, and the
last issue of a thread that is not stalled. -/
def State.windowStart (s : State) (cl : Nat) : Nat :=
  let k := s.cluster cl
  let first := (k.stalls.map (·.2.2)).foldl Nat.min s.now
  ((clusterCores cl).map fun c => (s.core c).lastIssue).foldl Nat.max (Nat.max k.stallSince first)

/-- The stall that began last, and on a tie of the lowest core and slot. -/
def Cluster.lastStall (k : Cluster) : Option Nat :=
  (k.stalls.foldl (fun m x =>
    match m with
    | some (since, t) => if since < x.2.2 || (since == x.2.2 && decide (x.1 < t)) then some (x.2.2, x.1) else m
    | none => some (x.2.2, x.1)) none).map (·.2)

/-- EXHAUSTION_DETECTOR: after 16,384 cycles the last stall takes FUTEXHAUST (19 R403). -/
def State.detect (s : State) (cl : Nat) : State :=
  let k := s.cluster cl
  if (clusterSlots cl).all s.quiet && decide (s.windowStart cl + 16384 ≤ s.now) then
    match k.lastStall with
    | none => s
    | some t =>
      match s.thread t with
      | none => s.unstall cl t
      | some th =>
        let s := s.unstall cl t
        let s := (s.setCluster cl { s.cluster cl with stallSince := s.now }).count th.part ctrExhaust
        s.takeTrap t { th with wait := .none }
          ⟨.futexhaust, BitVec.ofNat 64 cl, 0, th.pc.toNat, th.pc.toNat, false, false, false, none⟩
  else s

/-- EXHAUSTION_DETECTOR. -/
def execExhaustionDetector (cl : Nat) (s : State) : Out := .next (s.detect cl)

/-! ## Free-resource reports (03 R71) -/

/-- The longest free run of a cluster's tile store. -/
def Cluster.longestRun (k : Cluster) : Nat :=
  ((List.range 1025).filter fun len => len == 0 || (k.frameFit len).isSome).foldl Nat.max 0

/-- The report of a cluster: the slots, CLS, frame run and descriptors it has now, and the QUEUED tasks that a thief's choice goes
by (03 R71, R79; log entry 108: DESIGN CHOICE, unsafe). -/
def State.report (s : State) (cl : Nat) : Report where
  slots := (clusterCores cl).map fun c =>
    ((List.range 4).map fun j => if s.slotEmpty (c * 4 + j) then 2 ^ j else 0).foldl (· + ·) 0
  cls := (clusterCores cl).map s.clsFree
  frame := (s.cluster cl).longestRun
  descriptors := poolSize - (s.cluster cl).tasks.length
  queued := ((s.cluster cl).tasks.filter fun e => e.2.state == .queued).length
  time := s.now

/-- Whether a figure has changed by more than a quarter. -/
def changedQuarter (a b : Nat) : Bool := decide (a < 4 * (Nat.max a b - Nat.min a b))

/-- The figures of a report: of the mask of each core's empty slots, how many they are (log entry 109: DESIGN CHOICE, unsafe). -/
def Report.figures (r : Report) : List Nat :=
  r.slots.map (fun m => ((List.range 4).filter m.testBit).length) ++ r.cls ++ [r.frame, r.descriptors, r.queued]

/-- Whether a cluster reports now: its period of 128 cycles is over, or a figure has changed by more than a quarter since its
last report (03 R71). -/
def State.reportDue (s : State) (cl : Nat) : Bool :=
  match s.dist.reported.find cl with
  | none => true
  | some r =>
    decide (r.time + 128 ≤ s.now) || (r.figures.zip (s.report cl).figures).any fun x => changedQuarter x.1 x.2

/-- FREE_RESOURCE_REPORT: the distributor's view, after which records that the cluster refused are tried again. -/
def execFreeResourceReport (cl : Nat) (s : State) : Out :=
  .next (if s.reportDue cl then
      { s with dist := { s.dist with
        views := s.dist.views.put cl (s.report cl), reported := s.dist.reported.put cl (s.report cl)
        refusedAt := s.dist.refusedAt.filter (·.2.2 != cl) } }
    else s)

end Sys2Proof.Machine
end

