-- ==== Sys2Proof/Machine/Place.lean ====
section
/-!
DEFINITION. Where the master distributor places work: the slots of a gang (spec/02 R50), the eligible fields and dies
(spec/01 R24, spec/03 R72), the supervisor thread's move (spec/03 R73), and the reservation of slots, frames and CLS.
-/

namespace Sys2Proof.Machine

/-! ## The slots of a gang (02 R50) -/

/-- The present cores of a field in the order y × 16 + x. -/
def State.fieldCores (s : State) (f : Nat) : List Nat :=
  ((List.range 256).map (f * 256 + ·)).filter fun c => s.pkg.present (clusterOfCore c)

/-- The slots of a field gang's `n` threads at `t` threads a core; none when it does not fit. -/
def State.fieldPlan (s : State) (f t n : Nat) : Option (List Nat) :=
  let cores := s.fieldCores f
  if t * cores.length < n then none else some ((List.range n).map fun i => (cores[i / t]?).getD 0 * 4 + i % t)

/-- Threads of a die gang of `n` in field `j` of its die. -/
def dieShare (n j : Nat) : Nat := (n + 3 - j) / 4

/-- The slots of a die gang's threads, in thread order. -/
def State.diePlan (s : State) (d t n : Nat) : Option (List Nat) :=
  match s.fieldPlan (d * 4) t (dieShare n 0), s.fieldPlan (d * 4 + 1) t (dieShare n 1),
      s.fieldPlan (d * 4 + 2) t (dieShare n 2), s.fieldPlan (d * 4 + 3) t (dieShare n 3) with
  | some a, some b, some c, some e =>
    some ((List.range n).map fun i =>
      let l := if i % 4 = 0 then a else if i % 4 = 1 then b else if i % 4 = 2 then c else e
      (l[i / 4]?).getD 0)
  | _, _, _, _ => none

/-- A possible placement of a gang: whether on a die, its field or die, and its slots in thread order. -/
structure Plan where
  die : Bool
  unit : Nat
  slots : List Nat
  deriving DecidableEq, Repr

/-- The clusters of a list of slots, in order. -/
def slotClusters (die : Bool) (unit : Nat) (slots : List Nat) : List Nat :=
  let all := if die then (List.range 64).map (unit * 64 + ·) else (List.range 16).map (unit * 16 + ·)
  all.filter fun cl => slots.any fun t => clusterOfCore (coreOfKey t) == cl

/-- The clusters a placement occupies. -/
def Plan.clusters (p : Plan) : List Nat := slotClusters p.die p.unit p.slots

/-- The cores a list of slots occupies, each once. -/
def slotCores (slots : List Nat) : List Nat := (slots.map coreOfKey).eraseDups

/-- The slots a placement reserves: with FUSEL1 those of whole clusters (03 R72). -/
def Plan.reserved (p : Plan) (fused : Bool) : List Nat := if fused then p.clusters.flatMap clusterSlots else p.slots

/-- What a launch record or pool entry asks for (03 R66, 12 R296). -/
structure Launch where
  part : Nat
  ctl : Word
  entry : Nat
  args : List Word
  tiles : List Word
  dom : Nat
  deriving DecidableEq, Repr

/-- OP of a launch. -/
def Launch.op (l : Launch) : Nat := wbits l.ctl 63 56

/-- PRIO of a launch. -/
def Launch.prio (l : Launch) : Nat := wbits l.ctl 55 54

/-- TARGET of a launch. -/
def Launch.target (l : Launch) : Nat := wbits l.ctl 52 48

/-- FUSEL1 of a launch. -/
def Launch.fused (l : Launch) : Bool := wbits l.ctl 47 47 == 1

/-- Whether TARGET is 31 or a granule of the partition (03 R66). -/
def State.targetOk (s : State) (l : Launch) : Bool := l.target == 31 || (s.part l.part).granules.contains l.target

/-- Whether a field or die has all the clusters that a gang on the torus needs (01 R24). -/
def State.torusFits (s : State) (h : Header) (die : Bool) (u : Nat) : Bool :=
  !h.torus || (if die then (List.range 64).all fun q => s.pkg.present (u * 64 + q)
    else (List.range 16).all fun q => s.pkg.present (u * 16 + q))

/-- The fields or dies that R24 and TARGET permit. -/
def State.permitted (s : State) (l : Launch) (h : Header) : List Nat :=
  let gs := (s.part l.part).granules
  if l.op = 3 then
    (List.range 6).filter fun d =>
      (List.range 4).all (fun j => gs.contains (d * 4 + j)) && (l.target == 31 || l.target / 4 == d)
        && s.torusFits h true d
  else
    (List.range 24).filter fun f =>
      gs.contains f && (l.target == 31 || l.target == f) && s.torusFits h false f

/-- The placements that R24 and R50 admit, in order of field or die. -/
def State.plans (s : State) (l : Launch) (h : Header) : List Plan :=
  (s.permitted l h).filterMap fun u =>
    if l.op = 3 then (s.diePlan u (h.tpc + 1) h.gthreads).map (⟨true, u, ·⟩)
    else (s.fieldPlan u (h.tpc + 1) h.gthreads).map (⟨false, u, ·⟩)

/-- STATUS of a gang that can never be placed (19 R412, R414). -/
def State.gangFault (s : State) (l : Launch) (h : Header) : Option Nat :=
  let ps := s.plans l h
  if ps.isEmpty then some 0x0406
  else if ps.all fun p => (slotCores p.slots).all fun c => decide ((s.core c).clsNow * 256 < (h.tpc + 1) * h.clsscr) then
    some 0x0407
  else if ps.all fun p => p.clusters.all fun cl => decide ((s.cluster cl).frameUnits < h.tsframe) then some 0x0408
  else none

/-! ## The supervisor thread (03 R73) -/

/-- The slot of a partition's supervisor thread. -/
def State.supervisorSlot (s : State) (p : Nat) : Option Nat :=
  (s.threads.find? fun e => e.2.part == p && e.2.baseKind == .supervisor).map (·.1)

/-- Every slot of the present clusters of a partition. -/
def State.partSlots (s : State) (p : Nat) : List Nat :=
  ((List.range 24).filter (s.part p).granules.contains).flatMap fun g =>
    (s.fieldCores g).flatMap coreSlots

/-- Whether a slot lies in a field or on a die. -/
def inUnit (die : Bool) (unit t : Nat) : Bool :=
  if die then dieOfCore (coreOfKey t) == unit else granuleOfCore (coreOfKey t) == unit

/-- Where the supervisor thread goes when a gang needs its slot: outside the gang's field or die first, then within it. -/
def State.supervisorDest (s : State) (p : Nat) (die : Bool) (unit : Nat) (taken : List Nat) : Option Nat :=
  let free := (s.partSlots p).filter fun t => s.slotOpen t && !taken.contains t
  match free.find? fun t => !inUnit die unit t with
  | some t => some t
  | none => free.head?

/-! ## Eligible placements (03 R72) -/

/-- Position of a core within its cluster (07 R177). -/
def coreIndex (c : Nat) : Nat := c % 256 / 16 % 4 * 4 + c % 4

/-- Whether the distributor's view shows a slot as taken (03 R71). -/
def Dist.showsThread (d : Dist) (t : Nat) : Bool :=
  match d.views.find (clusterOfCore (coreOfKey t)) with
  | some r => !(((r.slots[coreIndex (coreOfKey t)]?).getD 0).testBit (t % 4))
  | none => true

/-- Whether the view shows room for a placement's frames and CLS. -/
def Dist.showsRoom (d : Dist) (p : Plan) (h : Header) : Bool :=
  p.clusters.all (fun cl => match d.views.find cl with
    | some r => decide (h.tsframe ≤ r.frame)
    | none => false)
  && (slotCores p.slots).all fun c =>
    match d.views.find (clusterOfCore c) with
    | some r => decide ((h.tpc + 1) * h.clsscr ≤ (r.cls[coreIndex c]?).getD 0)
    | none => false

/-- Whether a placement is eligible, the supervisor thread's move included. -/
def State.eligible (s : State) (part : Nat) (p : Plan) (fused : Bool) : Bool :=
  let res := p.reserved fused
  res.all (fun t => !s.gangKeeps t && !(s.core (coreOfKey t)).killed)
    && match s.supervisorSlot part with
      | some t => !res.contains t || (s.supervisorDest part p.die p.unit res).isSome
      | none => true

/-- The eligible placement whose target slots hold the fewest threads, and on a tie the lowest; one whose frames or CLS the view
does not show free is passed over (03 R71, R72; log entry 98: DEDUCED, safe). -/
def State.choose (s : State) (part : Nat) (fused : Bool) (h : Header) (ps : List Plan) : Option Plan :=
  ((ps.filter fun p => s.eligible part p fused && s.dist.showsRoom p h).foldl
    (fun m p =>
      let n := p.slots.countP s.dist.showsThread
      match m with
      | some (b, _) => if n < b then some (n, p) else m
      | none => some (n, p)) none).map (·.2)

/-! ## Reservation (03 R72) -/

/-- Frames for a gang in its clusters: the cluster that refuses otherwise. -/
def State.takeFrames (s : State) (len : Nat) : List Nat → Except Nat (State × List (Nat × Nat))
  | [] => .ok (s, [])
  | cl :: rest =>
    let k := s.cluster cl
    match k.frameFit len with
    | none => .error cl
    | some u =>
      match (s.setCluster cl { k with frames := k.frames ++ [(u, len)] }).takeFrames len rest with
      | .error e => .error e
      | .ok (s, fs) => .ok (s, (cl, u) :: fs)

/-- CLS runs for a gang on its cores: the cluster that refuses otherwise. -/
def State.takeSpans (s : State) (len : Nat) : List Nat → Except Nat (State × List (Nat × Nat))
  | [] => .ok (s, [])
  | c :: rest =>
    match s.clsFit c len with
    | none => .error (clusterOfCore c)
    | some off =>
      match (s.freshCls c off len).takeSpans len rest with
      | .error e => .error e
      | .ok (s, fs) => .ok (s, (c, off) :: fs)

/-- What a gang holds beside its slots: frames and spans, none of a kind that its header does not declare. -/
def State.takeStorage (s : State) (h : Header) (clusters cores : List Nat) :
    Except Nat (State × List (Nat × Nat) × List (Nat × Nat)) :=
  match (if h.tsframe = 0 then .ok (s, []) else s.takeFrames h.tsframe clusters) with
  | .error e => .error e
  | .ok (s, frames) =>
    match (if h.clsscr = 0 then .ok (s, []) else s.takeSpans ((h.tpc + 1) * h.clsscr) cores) with
    | .error e => .error e
    | .ok (s, spans) => .ok (s, frames, spans)

/-- The view after a placement: its slots, CLS and frames are debited (03 R71). -/
def Dist.debit (d : Dist) (h : Header) (slots : List Nat) (cl : Nat) : Dist :=
  match d.views.find cl with
  | none => d
  | some r =>
    let busy (i : Nat) : Nat :=
      ((List.range 4).map fun j => if slots.contains (coreOfCluster cl i * 4 + j) then 2 ^ j else 0).foldl (· + ·) 0
    let r := { r with
      slots := r.slots.mapIdx fun i m => m &&& (15 - busy i)
      cls := r.cls.mapIdx fun i n => if busy i = 0 then n else n - (h.tpc + 1) * h.clsscr
      frame := r.frame - h.tsframe }
    { d with views := d.views.put cl r }

/-- The supervisor thread is to leave the slots that a gang reserves, for the destination that R73 gives. -/
def State.clearWay (s : State) (part : Nat) (die : Bool) (unit : Nat) (res : List Nat) : State :=
  match s.supervisorSlot part with
  | some t =>
    if res.contains t then s.setPart part { s.part part with moveTo := s.supervisorDest part die unit res } else s
  | none => s

/-- Reserve a placement for a new gang (03 R72): the cluster that refuses it otherwise. -/
def State.placeGang (s : State) (l : Launch) (h : Header) (p : Plan) (f : Word) : Except Nat State :=
  let clusters := p.clusters
  match s.takeStorage h clusters (slotCores p.slots) with
  | .error e => .error e
  | .ok (s, frames, spans) =>
    let g : Gang := {
      part := l.part, dom := l.dom, entry := l.entry, hdr := h, prio := l.prio, args := l.args, future := f
      slots := p.slots, clusters := clusters, frames := frames, spans := spans, fused := l.fused, started := false
      startedAt := s.now, live := p.slots.length, stopping := false, preempted := false, saved := [], savedPlaces := []
      savedCores := [], savedBad := [], writes := [], saveAt := [], die := p.die }
    let s := s.clearWay l.part p.die p.unit (p.reserved l.fused)
    .ok { s with
      gangs := s.gangs.put s.nextGang g, nextGang := s.nextGang + 1
      dist := clusters.foldl (fun d cl => d.debit h (p.reserved l.fused) cl) s.dist }

end Sys2Proof.Machine
end

