-- ==== Sys2Proof/Machine/Memory.lean ====
section
/-!
DEFINITION. Loads, stores, atomics, fences, seals, watches, semaphores, barriers, rings, cache maintenance and contour
registers (spec/09 R218 to R241), with C.LD and C.ST.
-/

namespace Sys2Proof.Machine

/-! ## Loads and stores (09 R221 to R224) -/

/-- The effective address of a displaced form (09 R218). -/
def eaOf {n : Nat} (th : Thread) (a : Reg) (disp : BitVec n) (w : Width) : Nat :=
  (effective (th.getX a) disp (widthBytes w)).toNat

/-- LD (09 R222). -/
def execLd (g : Guard) (w : Width) (z : Bool) (d a : Reg) (disp : BitVec 8) (s : State) : Out :=
  issue (.ld g w z d a disp) s fun s th =>
    loadRes (.ld g w z d a disp) ⟨widthBytes w, z, .plain, .t, false⟩ d (eaOf th a disp w) (th.getTaint a) s th

/-- LD.ACQ (09 R222). -/
def execLdAcq (g : Guard) (sc : Scope) (w : Width) (z : Bool) (d a : Reg) (disp : BitVec 5) (s : State) : Out :=
  issue (.ldAcq g sc w z d a disp) s fun s th =>
    loadRes (.ldAcq g sc w z d a disp) ⟨widthBytes w, z, .acq, sc, false⟩ d (eaOf th a disp w) (th.getTaint a) s th

/-- LD.CON (09 R222). -/
def execLdCon (g : Guard) (w : Width) (z : Bool) (d a : Reg) (disp : BitVec 5) (s : State) : Out :=
  issue (.ldCon g w z d a disp) s fun s th =>
    loadRes (.ldCon g w z d a disp) ⟨widthBytes w, z, .plain, .t, true⟩ d (eaOf th a disp w) (th.getTaint a) s th

/-- ST (09 R224). -/
def execSt (g : Guard) (w : Width) (home : Bool) (src a : Reg) (disp : BitVec 8) (s : State) : Out :=
  issue (.st g w home src a disp) s fun s th =>
    storeX (.st g w home src a disp) (widthBytes w) home .plain .t src (eaOf th a disp w) s th

/-- ST.REL (09 R224). -/
def execStRel (g : Guard) (sc : Scope) (w : Width) (home : Bool) (src a : Reg) (disp : BitVec 5) (s : State) : Out :=
  issue (.stRel g sc w home src a disp) s fun s th =>
    storeX (.stRel g sc w home src a disp) (widthBytes w) home .rel sc src (eaOf th a disp w) s th

/-- C.LD (07 R171). -/
def execCLd (d a : Reg) (s : State) : Out :=
  issue (.cLd d a) s fun s th =>
    loadRes (.cLd d a) ⟨8, false, .plain, .t, false⟩ d (th.getX a).toNat (th.getTaint a) s th

/-- C.ST (07 R171). -/
def execCSt (src a : Reg) (s : State) : Out :=
  issue (.cSt src a) s fun s th => storeX (.cSt src a) 8 false .plain .t src (th.getX a).toNat s th

/-! ## Atomics (09 R225 to R227) -/

/-- The payload of a remote atomic: the operand, or for the compare and swaps new and comparand in 16 bytes each
(log entry 18: DESIGN CHOICE, safe). -/
def atomicPayload : AccOp → List Byte
  | .atomic 7 b cmp => leBytes 16 b.toNat ++ leBytes 16 cmp.toNat
  | .atomic _ b _ => leBytes 8 b.toNat
  | .casq new cmp => leBytes 16 new.toNat ++ leBytes 16 cmp.toNat
  | _ => []

/-- An atomic of `bytes` bytes to an address, with its operation number at the fabric, its operands' registers, the write
of its destination from the old value, and its access destination. -/
def atomicRes (i : Instr) (o : AOrd) (sc : Scope) (home : Bool) (bytes : Nat) (op : AccOp) (num : Nat) (d a b : Reg)
    (srcX : List Nat) (usesE : Bool) (dst : Dst) (put : Thread → Word → Word → Thread) (s : State) (th : Thread) : Res :=
  let ea := (th.getX a).toNat
  let form : Form := if bytes = 16 then .casq else .atomic
  let desc := descriptor 2 (Nat.log2 bytes) (bit home) (ordCode o) (scopeBits o sc) 0 0 b.val 0 0 d.val
  remoteDone th ea
    (fun lo hi =>
      let th := (put { th with wait := .none } lo hi).next i.len
      let s := s.setThread s.cur th
      .done (match o with | .acq | .ar => s.acquire (coreOfKey s.cur) sc | _ => s))
    (withAccess i s th ea bytes bytes desc form fun s c =>
      if c.place = .remote then remoteRes s th ea 0x07 (atomicPayload op).length num (atomicPayload op)
      else
        let acc := { newAccess th op ea bytes desc c dst with
          home := home, ord := o, scope := sc, srcX := srcX, srcE := usesE }
        .done (s.setThread s.cur ((th.addAccess acc).next i.len)))

/-- A 64-bit atomic xd, [xa], xb (09 R226). -/
def atomic64 (i : Instr) (num : Nat) (o : AOrd) (sc : AScope) (home : Bool) (d a b : Reg) (s : State) : Out :=
  issue i s fun s th =>
    let taint := th.getTaint a || th.getTaint b
    atomicRes i o (scopeOf sc) home 8 (.atomic num (th.getX b) (th.getE 0)) num d a b [b.val] (num == 7)
      (.x d 8 false taint) (fun th lo _ => th.setX d lo taint) s th

/-- AADD (09 R226). -/
def execAadd (g : Guard) (o : AOrd) (sc : AScope) (home : Bool) (d a b : Reg) (s : State) : Out :=
  atomic64 (.aadd g o sc home d a b) 0 o sc home d a b s

/-- AMIN (09 R226). -/
def execAmin (g : Guard) (o : AOrd) (sc : AScope) (home : Bool) (d a b : Reg) (s : State) : Out :=
  atomic64 (.amin g o sc home d a b) 1 o sc home d a b s

/-- AMAX (09 R226). -/
def execAmax (g : Guard) (o : AOrd) (sc : AScope) (home : Bool) (d a b : Reg) (s : State) : Out :=
  atomic64 (.amax g o sc home d a b) 2 o sc home d a b s

/-- AAND (09 R226). -/
def execAand (g : Guard) (o : AOrd) (sc : AScope) (home : Bool) (d a b : Reg) (s : State) : Out :=
  atomic64 (.aand g o sc home d a b) 3 o sc home d a b s

/-- AOR (09 R226). -/
def execAor (g : Guard) (o : AOrd) (sc : AScope) (home : Bool) (d a b : Reg) (s : State) : Out :=
  atomic64 (.aor g o sc home d a b) 4 o sc home d a b s

/-- AXOR (09 R226). -/
def execAxor (g : Guard) (o : AOrd) (sc : AScope) (home : Bool) (d a b : Reg) (s : State) : Out :=
  atomic64 (.axor g o sc home d a b) 5 o sc home d a b s

/-- ASWAP (09 R226). -/
def execAswap (g : Guard) (o : AOrd) (sc : AScope) (home : Bool) (d a b : Reg) (s : State) : Out :=
  atomic64 (.aswap g o sc home d a b) 6 o sc home d a b s

/-- ACAS (09 R226). -/
def execAcas (g : Guard) (o : AOrd) (sc : AScope) (home : Bool) (d a b : Reg) (s : State) : Out :=
  atomic64 (.acas g o sc home d a b) 7 o sc home d a b s

/-- ACASQ (09 R227). -/
def execAcasq (g : Guard) (o : AOrd) (sc : AScope) (d a b : Reg) (s : State) : Out :=
  issue (.acasq g o sc d a b) s fun s th =>
    let b1 := regNat (b.val + 1)
    let taint := th.getTaint a || th.getTaint b || th.getTaint b1
    atomicRes (.acasq g o sc d a b) o (scopeOf sc) false 16
      (.casq (th.getX b1 ++ th.getX b) (th.getE 1 ++ th.getE 0)) 8 d a b [b.val, b.val + 1] true (.pair d taint)
      (fun th lo hi => (th.setX d lo taint).setX (regNat (d.val + 1)) hi taint) s th

/-! ## FENCE (09 R228, 05 R127) -/

/-- FENCE: its release has been waited for; the acquire follows. -/
def execFence (g : Guard) (sc : Scope) (s : State) : Out :=
  issue (.fence g sc) s fun s th => .done ((s.acquire (coreOfKey s.cur) sc).setThread s.cur (th.next 4))

/-! ## SEAL and UNSEAL (09 R229, 04 R113, R114) -/

/-- Whether an address lies in a region. -/
def inRegion (base log2 va : Nat) : Bool := decide (base ≤ va) && decide (va < base + 2 ^ log2)

/-- The state with every core changed. -/
def State.mapCores (s : State) (f : Core → Core) : State := { s with cores := s.cores.map fun e => (e.1, f e.2) }

/-- Every PLB of a partition drops its entries for a range. -/
def State.dropPlbRange (s : State) (p base log2 : Nat) : State :=
  s.mapCores fun k => { k with plb := k.plb.filter fun e => !(e.part == p && e.base == base && e.log2 == log2) }

/-- The threads of a partition with an access to a range that has not performed. -/
def State.pendingIn (s : State) (p base log2 : Nat) : Option Nat :=
  (s.threads.find? fun e => e.2.part == p && e.2.acc.any fun a => !a.hasPerformed && inRegion base log2 a.va).map (·.1)

/-- Whether an RLD or RST to a range is under way to its home. -/
def State.homePending (s : State) (p base log2 : Nat) : Bool :=
  s.homeOps.any fun o => o.part == p && inRegion base log2 o.access.va

/-- Remove every COPY of a partition in a range, forwarded first (05 R121). -/
def State.removeRange (s : State) (p base log2 : Nat) : State :=
  ((s.part p).copies.filter fun c => inRegion base log2 c.line).foldl (fun s c => s.remove p c.die c.line) s

/-- Every L1 line of a partition in a range that satisfies a test goes. -/
def State.dropL1Range (s : State) (p base log2 : Nat) (gone : CacheLine → Bool) : State :=
  s.mapCores fun k => { k with l1 := k.l1.filter fun l => !(l.part == p && inRegion base log2 l.line && gone l) }

/-- The stores of a partition's engine commands to a range that are accepted as part of a block or an element perform: no block
is left half written when a mapping or a seal changes (18 R398, 20 R433). -/
def State.performBegun (s : State) (p base log2 : Nat) : State :=
  s.commands.foldl (fun s e =>
    e.2.sq.foldl (fun s st =>
      match s.commands.find e.1, st.place with
      | some c, some pa => if c.part = p ∧ inRegion base log2 st.va then s.engPerformed e.1 c st pa else s
      | _, _ => s) s) s

/-- The region a SEAL or UNSEAL names, or its PROT (09 R220, 18 R393). -/
def sealRegion (s : State) (th : Thread) (va : Nat) : Except CheckFail (State × PlbEntry) :=
  let desc := descriptor 8 0 0 0 0 0 5 0 0 0 0
  match nameOf va with
  | .nothing => .error (.trap s (protAt va desc 0 1))
  | .fabric _ _ | .tile _ _ | .window _ => .error (.trap s (protAt va desc 0 3))
  | .translated =>
    match plbLookup s (coreOfKey s.cur) th.part th.dom va with
    | .error e => .error (e.check s (coreOfKey s.cur) va desc)
    | .ok (none, _) => .error (.trap s (protAt va desc 1 1))
    | .ok (some e, s) => if e.rights.sealOk then .ok (s, e) else .error (.trap s (protAt va desc 1 2))

/-- What follows once every access of a range that was checked before its PLB entries went has performed; until then one of
them progresses, and the instruction runs again (09 R229). -/
def onceSettled (s : State) (p : Nat) (e : PlbEntry) (k : State → Res) : Res :=
  match s.pendingIn p e.base e.log2 with
  | some t => .done ((s.markBusy s.cur).progress t)
  | none => if s.homePending p e.base e.log2 then .done (s.markBusy s.cur) else k s

/-- SEAL (09 R229). -/
def execSealR (g : Guard) (a : Reg) (s : State) : Out :=
  issue (.sealR g a) s fun s th =>
    let va := (th.getX a).toNat
    match sealRegion s th va with
    | .error f => f.res
    | .ok (s, e) =>
      let k := s.part th.part
      let held := k.seals.contains (e.base, e.log2)
      if !held && decide (32 ≤ k.seals.length) then
        (CheckFail.trap s (protAt va (descriptor 8 0 0 0 0 0 5 0 0 0 0) 1 4)).res
      else
        let s := s.performBegun th.part e.base e.log2
        let k := s.part th.part
        let s := s.setPart th.part (if held then k else { k with seals := k.seals ++ [(e.base, e.log2)] })
        onceSettled (s.dropPlbRange th.part e.base e.log2) th.part e fun s =>
          let s := (s.removeRange th.part e.base e.log2).dropL1Range th.part e.base e.log2 fun _ => true
          if (s.part th.part).copies.any fun c => inRegion e.base e.log2 c.line then .done (s.markBusy s.cur)
          else .done (s.setThread s.cur (th.next 4))

/-- The copies of a range are sealed no more (04 R114). -/
def Part.unsealCopies (k : Part) (base log2 : Nat) : Part :=
  { k with copies := k.copies.map fun c => if inRegion base log2 c.line then { c with isSealed := false } else c }

/-- UNSEAL (09 R229): no load that was checked while the range was sealed is left to fill a sealed line (04 R114). -/
def execUnsealR (g : Guard) (a : Reg) (s : State) : Out :=
  issue (.unsealR g a) s fun s th =>
    match sealRegion s th (th.getX a).toNat with
    | .error f => f.res
    | .ok (s, e) =>
      let k := s.part th.part
      let s := s.setPart th.part ({ k with seals := k.seals.filter (· != (e.base, e.log2)) }.unsealCopies e.base e.log2)
      onceSettled (s.dropPlbRange th.part e.base e.log2) th.part e fun s =>
        .done ((s.dropL1Range th.part e.base e.log2 (·.isSealed)).setThread s.cur (th.next 4))

/-! ## WAITV (09 R230) -/

/-- An access whose translation is refused while its instruction waits: it performs nothing, its cause is deferred, and the
thread goes on (17 R366). -/
def refusedRes (i : Instr) (s : State) (th : Thread) (a : Access) (r : Refused) : Res :=
  let s := s.s2refusal th.part a.va r
  let d : Deferred := ⟨r.cause, BitVec.ofNat 64 a.info, BitVec.ofNat 64 (a.desc + r.bits), { a with id := th.nextId }⟩
  .done (s.setThread s.cur ({ th with deferred := th.deferred ++ [d], nextId := th.nextId + 1 }.next i.len))

/-- The page of a checked access's line, as the place of the access sees it: an ATOM page's unit, or a cacheable line
(04 R105, R112). -/
def checkedPage (s : State) (p die : Nat) (c : Checked) (write : Bool) : Except Refused Page :=
  if c.atom then (translate s p die (lineOf c.va) write).bind (·.allows write true) else linePage s p die (lineOf c.va) write

/-- WAITV of an address against a value: the comparison is made at the home of a cacheable line. -/
def waitvRes (i : Instr) (ea : Nat) (v : Word) (s : State) (th : Thread) : Res :=
  let done (s : State) : Res := .done (s.setThread s.cur ({ th with wait := .none }.next i.len))
  let desc := descriptor 7 3 0 0 0 0 5 0 0 0 0
  let die := dieOfCore (coreOfKey s.cur)
  let watch (s : State) (pa : Nat) (bs : List Byte) : Res :=
    if BitVec.ofNat 64 (leNat bs) ≠ v then done s else blockRes s th (.watch (lineOf pa))
  if th.wait = .woken then done s
  else
    withAccess i s th ea 8 8 desc .waitv fun s c =>
      match c.place with
      | .remote => done s
      | .single pa => watch s pa (s.placeBytes pa 8)
      | _ =>
        if s.hostWaits th.part die c.va then .settle
        else
          match checkedPage s th.part die c false with
          | .ok g =>
            watch s (g.place c.va) (if c.atom then s.load (g.place c.va) 8 else s.homeBytes th.part c.va (g.place c.va) 8)
          | .error r => refusedRes i s th (newAccess th .load ea 8 desc c .none) r

/-- WAITV (09 R230). -/
def execWaitv (g : Guard) (a b : Reg) (s : State) : Out :=
  issue (.waitv g a b) s fun s th => waitvRes (.waitv g a b) (th.getX a).toNat (th.getX b) s th

/-! ## Semaphores (09 R231) -/

/-- SEMP (09 R231). -/
def execSemp (g : Guard) (k : Fin 4) (a : Reg) (s : State) : Out :=
  issue (.semp g k a) s fun s th =>
    let c := coreOfKey s.cur
    let core := s.core c
    let at_ := windowPlace c (semOffset k.val)
    let amount := th.getX a
    let done (s : State) : Res :=
      .done ((s.acquire c .c).setThread s.cur ({ th with wait := .none }.next 4))
    if th.wait = .woken ∨ amount = 0 then done s
    else if (core.semWait.all (·.2 != k.val)) && decide (amount.toNat ≤ (s.loadWord at_).toNat) then
      done (s.storeWord at_ (s.loadWord at_ - amount))
    else
      .done ((s.setCore c { core with semWait := core.semWait ++ [(s.cur, k.val)] }).setThread s.cur
        { th with wait := .sem k.val amount })

/-- SEMV (09 R231). -/
def execSemv (g : Guard) (k : Fin 4) (a : Reg) (s : State) : Out :=
  issue (.semv g k a) s fun s th =>
    let c := coreOfKey s.cur
    let at_ := windowPlace c (semOffset k.val)
    let s := s.storeWord at_ (s.loadWord at_ + th.getX a)
    .done ((s.setThread s.cur (th.next 4)).semChanged c k.val)

/-! ## BARW (09 R235, R236) -/

/-- The bit of a cluster in a participation mask: within its field, or for a die gang within its die. -/
def maskBit (dieGang : Bool) (cl : Nat) : Nat := if dieGang then cl % 64 else cl % 16

/-- The mask of the clusters a gang occupies. -/
def Gang.occupied (g : Gang) : Nat := g.clusters.foldl (fun m cl => m ||| 2 ^ maskBit g.die cl) 0

/-- The number of threads of a gang on the clusters of a mask: the participants of a phase. -/
def Gang.participants (g : Gang) (mask : Nat) : Nat :=
  g.slots.countP fun t => mask.testBit (maskBit g.die (clusterOfCore (coreOfKey t)))

/-- BARW (09 R236): outside its own mask it ends with status 2; otherwise the thread waits for the channel's root. -/
def execBarw (g : Guard) (ch : Fin 4) (d a b : Reg) (s : State) : Out :=
  issue (.barw g ch d a b) s fun s th =>
    let taint := th.getTaint a || th.getTaint b
    let finish (s : State) (n : Nat) : Res :=
      .done (s.setThread s.cur (({ th with wait := .none }.setX d (BitVec.ofNat 64 n) taint).next 4))
    match th.wait with
    | .status n => finish (if n = 0 then s.acquire (coreOfKey s.cur) .d else s) n
    | _ =>
      match th.gang.bind s.gangs.find with
      | none => finish s 2
      | some gang =>
        let mask := (th.getX a).toNat &&& gang.occupied
        if !mask.testBit (maskBit gang.die (clusterOfCore (coreOfKey s.cur))) then finish s 2
        else
          let w := Wait.barrier ch.val mask (wbits (th.getX b) 3 0) (wbits (th.getX b) 63 32) false s.now false
            d taint
          .done (s.setThread s.cur { th with wait := w })

/-! ## Rings (09 R232 to R234) -/

/-- RINGBAD naming a ring. -/
def ringBad (h : Handle) : Res := .trap .ringbad (BitVec.ofNat 64 h.val) 0

/-- Whether a side of a ring has at least `n` slots. -/
def Ring.has (r : Ring) (side : RSide) (n : Nat) : Bool :=
  match side with
  | .filled => decide (n ≤ r.filled)
  | .free => decide (n ≤ r.free)

/-- RWAIT (09 R233). -/
def execRwait (g : Guard) (side : RSide) (h : Handle) (n : BitVec 11) (s : State) : Out :=
  issue (.rwait g side h n) s fun s th =>
    let r := s.ringOf th h
    let done : Res :=
      .done ((s.acquire (coreOfKey s.cur) .k).setThread s.cur ({ th with wait := .none }.next 4))
    if th.wait = .woken then done
    else if th.wait = .refused 0 || !r.en || decide (r.slotm1 + 1 < n.toNat) then ringBad h
    else if r.has side n.toNat then done
    else blockRes s th (.ring th.homeCluster h.val side n.toNat)

/-- A side of a ring advanced by `n` (04 R100). -/
def Ring.advance (r : Ring) (side : RSide) (n : Nat) : Ring :=
  match side with
  | .filled => { r with rd := (r.rd + n) % (r.slotm1 + 1), free := r.free + n, filled := r.filled - n }
  | .free => { r with wr := (r.wr + n) % (r.slotm1 + 1), filled := r.filled + n, free := r.free - n }

/-- Whether a wait is for a ring that now satisfies it. -/
def Wait.ringMet (cl n : Nat) (r : Ring) : Wait → Bool
  | .ring cl' n' side count => cl' == cl && n' == n && r.has side count
  | _ => false

/-- The ring unit's advance of a side, with the waits it meets (09 R233). -/
def State.advanceRing (s : State) (cl n : Nat) (side : RSide) (count : Nat) : State :=
  let k := s.cluster cl
  let r := (k.ring n).advance side count
  (s.setCluster cl { k with rings := k.rings.put n r }).wakeAll (Wait.ringMet cl n r) .woken

/-- RADV (09 R233). -/
def execRadv (g : Guard) (side : RSide) (h : Handle) (n : BitVec 11) (s : State) : Out :=
  issue (.radv g side h n) s fun s th =>
    let r := s.ringOf th h
    if !r.en || !r.has side n.toNat then ringBad h
    else .done ((s.setThread s.cur (th.next 4)).advanceRing th.homeCluster h.val side n.toNat)

/-- The address of an LDR or STR, or its trap (09 R234). -/
def slotAddress (s : State) (th : Thread) (h : Handle) (b : Reg) (side : RSide) (k : Nat → Res) : Res :=
  let r := s.ringOf th h
  let slot := wbits (th.getX b) 63 32
  let off := wbits (th.getX b) 31 0
  if !r.admitsSlot slot off 8 then ringBad h
  else if off % 8 ≠ 0 then .trap .align (BitVec.ofNat 64 off) 0
  else k (ringAddr th.homeCluster r side slot off)

/-- LDR (09 R234). -/
def execLdr (g : Guard) (d : Reg) (h : Handle) (b : Reg) (s : State) : Out :=
  issue (.ldr g d h b) s fun s th =>
    slotAddress s th h b .filled fun ea =>
      loadRes (.ldr g d h b) ⟨8, false, .plain, .t, false⟩ d ea (th.getTaint b) s th

/-- STR (09 R234). -/
def execStr (g : Guard) (src : Reg) (h : Handle) (b : Reg) (s : State) : Out :=
  issue (.str g src h b) s fun s th =>
    slotAddress s th h b .free fun ea => storeX (.str g src h b) 8 false .plain .t src ea s th

/-! ## Cache and fetch maintenance (09 R237) -/

/-- The RD check of CWB and CINV: no effect where the line is not cacheable (09 R237, 18 R393), an address outside the map
among those (log entry 90: DEDUCED, unsafe). -/
def maintain (s : State) (th : Thread) (va : Nat) (k : State → Res) : Res :=
  let desc := descriptor 9 0 0 0 0 0 5 0 0 0 0
  let skip (s : State) : Res := .done (s.setThread s.cur (th.next 4))
  match nameOf va with
  | .translated =>
    match plbLookup s (coreOfKey s.cur) th.part th.dom va with
    | .error e => (e.check s (coreOfKey s.cur) va desc).res
    | .ok (none, _) => (CheckFail.trap s (protAt va desc 1 1)).res
    | .ok (some e, s) =>
      if !e.rights.rd then (CheckFail.trap s (protAt va desc 1 2)).res
      else if e.rights.atom then skip s
      else k s
  | _ => skip s

/-- CWB (09 R237): it waits for an unreachable home as a release does (20 R437). -/
def execCwb (g : Guard) (a : Reg) (s : State) : Out :=
  issue (.cwb g a) s fun s th =>
    let va := (th.getX a).toNat
    let line := lineOf va
    let die := dieOfCore (coreOfKey s.cur)
    maintain s th va fun s =>
      if th.acc.any fun b => b.writes && !b.hasPerformed && lineOf b.va == line then .settle
      else if s.unreachable th.part die line then
        .done (s.setThread s.cur ((th.noteAt line th.pc.toNat).mark s.now))
      else
        let s := (s.publish th.part die line (th.aset.contains line)).flushHomes th.part false (·.line == line)
        .done (s.setThread s.cur
          ({ th with wset := th.wset.filter (·.1 != line), aset := th.aset.filter (· != line) }.next 4))

/-- CINV (09 R237). -/
def execCinv (g : Guard) (a : Reg) (s : State) : Out :=
  issue (.cinv g a) s fun s th =>
    let va := (th.getX a).toNat
    let line := lineOf va
    maintain s th va fun s =>
      if th.acc.any fun b => lineOf b.va == line then .settle
      else
        let c := s.l1Core (coreOfKey s.cur) line
        .done ((s.keepL1 c fun l => !(l.part == th.part && l.line == line)).setThread s.cur (th.next 4))

/-- IINV (09 R237): no effect where fetch is not permitted. -/
def execIinv (g : Guard) (a : Reg) (s : State) : Out :=
  issue (.iinv g a) s fun s th =>
    let va := (th.getX a).toNat
    let c := coreOfKey s.cur
    let skip (s : State) : Res := .done (s.setThread s.cur (th.next 4))
    match nameOf va, plbLookup s c th.part th.dom va with
    | .translated, .ok (some e, s) =>
      let k := s.core c
      skip (if e.rights.x then
          s.setCore c { k with icache := k.icache.filter fun l => !(l.part == th.part && l.line == lineOf va) }
        else s)
    | .translated, .error (.poisoned pa src) => .done (s.consumeFrom c pa src)
    | .translated, .error .waits => .settle
    | _, _ => skip s

/-- IFB (09 R237). -/
def execIfb (g : Guard) (s : State) : Out :=
  issue (.ifb g) s (thenNext (.ifb g) fun th => { th with ahead := [] })

/-! ## Contour registers (09 R239) -/

/-- Whether CTL of CTSET is legal: no reserved bit, and an FMT that is admitted (09 R239). -/
def ctlLegal (c : Word) : Bool :=
  wbits c 63 7 == 0 && (decide (wbits c 4 0 ≤ 0x0C) || (decide (0x14 ≤ wbits c 4 0) && decide (wbits c 4 0 ≤ 0x16)))

/-- CTSET (09 R239). -/
def execCtset (g : Guard) (n : Fin 16) (a : Reg) (s : State) : Out :=
  issue (.ctset g n a) s fun s th =>
    let ctl := th.getX a
    let fmt := wbits ctl 4 0
    let act := wbits ctl 6 5
    let low := th.getE 2
    let high := th.getE 3
    if !ctlLegal ctl then .trap .illegal (BitVec.ofNat 64 (Instr.ctset g n a).word) 0
    else if act ≠ 0 ∧ (!boundAdmitted fmt low || !boundAdmitted fmt high
        || decide ((boundValue fmt low).cmp (boundValue fmt high) > 0)) then
      .trap .contour (BitVec.ofNat 64 n.val) 0
    else
      let c := coreOfKey s.cur
      let k := s.core c
      let ct : Contour := ⟨wbits (th.getE 0) 55 6 * 64, wbits (th.getE 1) 55 6 * 64, low, high, fmt, act, 0⟩
      .done ((s.setCore c { k with contours := k.contours.put n.val ct }).setThread s.cur (th.next 4))

/-- CTCLR (09 R239). -/
def execCtclr (g : Guard) (d : Reg) (n : Fin 16) (s : State) : Out :=
  issue (.ctclr g d n) s fun s th =>
    let c := coreOfKey s.cur
    let k := s.core c
    let ct := k.contour n.val
    let status := BitVec.ofNat 64 (bit (ct.act != 0) * 2 ^ 32 + ct.count.toNat)
    .done ((s.setCore c { k with contours := k.contours.put n.val .inactive }).setThread s.cur
      ((th.setX d status false).next 4))

/-! ## Vector loads and stores (10 R257, R258) -/

/-- A vector load of 32 bytes: on an ATOM page two 16-byte operations (10 R257), whose refusal is one cause (log entry 110: DEDUCED,
unsafe). -/
def vloadRes (i : Instr) (d : Reg) (ea : Nat) (addrTaint : Bool) (s : State) (th : Thread) : Res :=
  let desc := descriptor 0 5 0 0 0 0 1 d.val 0 0 0
  withAccess i s th ea 32 32 desc .vload fun s c =>
    let a := { newAccess th .load ea 32 desc c (.v d 0) with l1ok := !addrTaint }
    let th := if c.place = .atom then
        (th.addAccess { a with size := 16 }).addAccess
          { a with size := 16, va := a.va + 16, dst := .v d 16 }
      else th.addAccess a
    .done (s.setThread s.cur (th.next i.len))

/-- A vector store of 32 bytes: on an ATOM page two 16-byte operations, whose refusal is one cause (log entry 110). -/
def vstoreRes (i : Instr) (src : Reg) (ea : Nat) (s : State) (th : Thread) : Res :=
  let desc := descriptor 1 5 0 0 0 0 1 src.val 0 0 0
  withAccess i s th ea 32 32 desc .vstore fun s c =>
    withContour s c.va (leBytes 32 (th.getV src).toNat) fun s data =>
      let a := { newAccess th .store ea 32 desc c .none with data := data, srcV := [src.val] }
      let th := if c.place = .atom then
          (th.addAccess { a with size := 16, data := data.take 16 }).addAccess
            { a with size := 16, va := a.va + 16, data := data.drop 16 }
        else th.addAccess a
      .done (s.setThread s.cur (th.next i.len))

/-- VLD (10 R257). -/
def execVld (g : Guard) (d a : Reg) (disp : BitVec 11) (s : State) : Out :=
  issue (.vld g d a disp) s fun s th =>
    vloadRes (.vld g d a disp) d (effective (th.getX a) disp 32).toNat (th.getTaint a) s th

/-- VST (10 R257). -/
def execVst (g : Guard) (src a : Reg) (disp : BitVec 11) (s : State) : Out :=
  issue (.vst g src a disp) s fun s th => vstoreRes (.vst g src a disp) src (effective (th.getX a) disp 32).toNat s th

/-- The address of a VLDR or VSTR, or RINGBAD (10 R258). -/
def vslotAddress (s : State) (th : Thread) (h : Handle) (side : RSide) (slot : BitVec 5) (off : BitVec 6)
    (k : Nat → Res) : Res :=
  let r := s.ringOf th h
  if !r.admitsSlot slot.toNat (off.toNat * 32) 32 then ringBad h
  else k (ringAddr th.homeCluster r side slot.toNat (off.toNat * 32))

/-- VLDR (10 R258). -/
def execVldr (g : Guard) (d : Reg) (h : Handle) (side : RSide) (slot : BitVec 5) (off : BitVec 6) (s : State) : Out :=
  issue (.vldr g d h side slot off) s fun s th =>
    vslotAddress s th h side slot off fun ea => vloadRes (.vldr g d h side slot off) d ea false s th

/-- VSTR (10 R258). -/
def execVstr (g : Guard) (src : Reg) (h : Handle) (side : RSide) (slot : BitVec 5) (off : BitVec 6) (s : State) : Out :=
  issue (.vstr g src h side slot off) s fun s th =>
    vslotAddress s th h side slot off fun ea => vstoreRes (.vstr g src h side slot off) src ea s th

end Sys2Proof.Machine
end

