-- ==== Sys2Proof/Machine/Registers.lean ====
section
/-!
DEFINITION. The configuration registers (spec/07 R175 to R182, spec/17 R376, spec/22 R464, spec/03 R64, spec/04 R98,
R99): what reading each one gives and what writing it does, for CSRR, CSRW, the host's BAR0 and the operations of the
machine.
-/

namespace Sys2Proof.Machine

/-! ## Launch-queue registers (03 R64, R68; 19 R417 to R419; 04 R90) -/

/-- A launch queue of a partition. -/
def Part.queue (k : Part) (q : Nat) : LaunchQueue := (k.queues.find q).getD .reset

/-- The state with a launch queue replaced. -/
def State.setQueue (s : State) (p q : Nat) (l : LaunchQueue) : State :=
  let k := s.part p
  s.setPart p { k with queues := k.queues.put q l }

/-- Whether a partition has a launch queue (03 R64). -/
def State.hasQueue (s : State) (p q : Nat) : Bool := decide (q < (s.part p).queueCount)

/-- A notify (03 R68; 19 R417, R418): one that overflows the queue is discarded and counted; a mapped or a disabled queue
takes its tail only; an enabled unmapped queue becomes PENDING. -/
def State.lqNotify (s : State) (p q v : Nat) : State :=
  if !s.hasQueue p q then s
  else
    let l := (s.part p).queue q
    let tail := v % 65536
    if 2 ^ l.size < (tail + 65536 - l.head) % 65536 then s.count p ctrLqover
    else
      let l := { l with
        tail := tail, refusedRead := false, headSince := if l.head = l.tail then s.now else l.headSince
        record := if tail = l.head then none else l.record }
      let l := if !l.mapped && l.enable && !l.pending then { l with pending := true, pendingSince := s.now } else l
      s.setQueue p q l

/-- A write of LQ_CFG (03 R64; 19 R417, R419). Clearing ENABLE unmaps the queue (03 R68). -/
def State.lqCfg (s : State) (p q v : Nat) : State :=
  if !s.hasQueue p q then s
  else
    let l := (s.part p).queue q
    let size := bitsOf v 55 52
    let frozen := l.enable || l.head != l.tail
    let on := bitsOf v 63 63 == 1
    let l := { l with
      enable := on, prio := bitsOf v 60 59, size := if frozen || decide (size < 4) then l.size else size
      mapped := l.mapped && on, record := if on then l.record else none }
    let l := if on && !l.mapped && l.head != l.tail && !l.pending then
        { l with pending := true, pendingSince := s.now }
      else l
    let s := s.setQueue p q l
    if on then s else { s with dist := { s.dist with slots := s.dist.slots.filter (· != (p, q)) } }

/-- A write of LQ_BASE (19 R419). -/
def State.lqBase (s : State) (p q v : Nat) : State :=
  if !s.hasQueue p q then s
  else
    let l := (s.part p).queue q
    if l.enable || l.head != l.tail then s else s.setQueue p q { l with base := bitsOf v 55 7 * 128 }

/-- A write of LQ_DOM: unchanged for a number at or above N (04 R90). -/
def State.lqDom (s : State) (p q v : Nat) : State :=
  if !s.hasQueue p q || decide ((s.part p).domains ≤ bitsOf v 12 0) then s
  else s.setQueue p q { (s.part p).queue q with dom := bitsOf v 12 0 }

/-! ## Partition registers (07 R182) -/

/-- A write of ERRCLR: a 1 in bit n clears counter n (22 R464). -/
def State.errclr (s : State) (p v : Nat) : State :=
  let k := s.part p
  s.setPart p { k with counters := k.counters.filter fun e => !(decide (e.1 < 22) && v.testBit e.1) }

/-- A write of PLBINV: every PLB of the partition drops the domain's entries (04 R94); none for a number at or above N
(04 R90). -/
def State.plbinv (s : State) (p v : Nat) : State :=
  let d := bitsOf v 12 0
  if (s.part p).domains ≤ d then s
  else s.mapCores fun k => { k with plb := k.plb.filter fun e => !(e.part == p && e.dom == d) }

/-- A write of S1INV (04 R103, R111): the slices' translations of the range and the walkers' entries go, and every L2 line of
it is written back under the old mapping and removed. -/
def State.s1inv (s : State) (p v : Nat) : State :=
  let log2 := bitsOf v 63 58
  if log2 < 12 ∨ 56 < log2 then s
  else
    let base := bitsOf v 55 12 * 4096 / 2 ^ log2 * 2 ^ log2
    let s := ((s.performBegun p base log2).removeRange p base log2).flushHomes p true fun h => inRegion base log2 h.line
    let s := s.dropWalk p base (base + 2 ^ log2)
    let k := s.part p
    s.setPart p { k with
      xcache := k.xcache.filter fun e => !(decide (e.page < base + 2 ^ log2) && decide (base < e.page + e.size)) }

/-- Whether an L2 still holds a line of the range of a write of S1INV, whose home cannot be reached (04 R111; 20 R437). -/
def State.s1invOpen (s : State) (p v : Nat) : Bool :=
  let log2 := bitsOf v 63 58
  let base := bitsOf v 55 12 * 4096 / 2 ^ log2 * 2 ^ log2
  !decide (log2 < 12) && !decide (56 < log2)
    && ((s.part p).copies.any (fun c => inRegion base log2 c.line) || (s.part p).lines.any fun h => inRegion base log2 h.line)

/-- A write of HDOM or FDOM: unchanged for a number at or above N (04 R90). -/
def State.domWrite (s : State) (p : Nat) (fabric : Bool) (v : Nat) : State :=
  let k := s.part p
  let d := bitsOf v 12 0
  if k.domains ≤ d then s
  else s.setPart p (if fabric then { k with fdom := d } else { k with hdom := d })

/-! ## Cluster registers (04 R98, R99; 20 R431; 07 R181) -/

/-- A cluster's gangs, from their acceptance to their retirement. -/
def State.gangsOn (s : State) (cl : Nat) : Bool := s.gangs.any fun e => e.2.clusters.contains cl

/-- A write of TSAREA (04 R98, 20 R431). -/
def State.tsarea (s : State) (cl v : Nat) : State :=
  let k := s.cluster cl
  let park := bitsOf v 26 16
  let ring := bitsOf v 10 0
  if !k.tasks.isEmpty || !k.parked.isEmpty || s.gangsOn cl || k.rings.any (·.2.en) || decide (1024 < ring + park) then s
  else s.setCluster cl { k with ringArea := ring, parkArea := park }

/-- Whether a ring lies wholly inside the ring area (04 R99). -/
def Ring.inside (r : Ring) (area : Nat) : Bool :=
  decide (r.base * 64 + (r.slotm1 + 1) * 2 ^ r.slotsz ≤ area * 2048)

/-- Whether a wait is for a ring. -/
def Wait.onRing (cl n : Nat) : Wait → Bool
  | .ring cl' n' _ _ => cl' == cl && n' == n
  | _ => false

/-- Every COPYR that writes to a ring ends with RINGOFF and the slots it has written and advanced (20 R431). -/
def State.endCopyr (s : State) (cl n : Nat) : State :=
  { s with commands := s.commands.map fun e =>
      let c := e.2
      if c.engine = 8192 + cl ∧ c.op = 2 ∧ wbits ((c.words[1]?).getD 0) 3 0 = n ∧ c.finished = none ∧ c.started then
        (e.1, { c with sq := c.sq.filter (·.place.isSome), stop := some (0, 0x0009, BitVec.ofNat 64 c.pos) })
      else e }

/-- A write of RING_CFG_n (04 R99, 20 R431). -/
def State.ringCfg (s : State) (cl n v : Nat) : State :=
  let k := s.cluster cl
  let r := k.ring n
  let on := bitsOf v 63 63 == 1
  if r.en then
    if on then s
    else
      let s := s.setCluster cl { k with rings := k.rings.put n { r with en := false } }
      (s.wakeAll (Wait.onRing cl n) (.refused 0)).endCopyr cl n
  else
    let sz := bitsOf v 24 20
    let r := { r with
      slotm1 := bitsOf v 43 32, base := bitsOf v 14 0, slotsz := if 6 ≤ sz ∧ sz ≤ 17 then sz else r.slotsz }
    let r := if on && r.inside k.ringArea then
        { r with en := true, filled := 0, free := r.slotm1 + 1, rd := 0, wr := 0 }
      else r
    s.setCluster cl { k with rings := k.rings.put n r }

/-- A write of FSPILLBASE, after which the cluster spills again (07 R181, 19 R401). -/
def State.fspillbase (s : State) (cl v : Nat) : State :=
  s.setCluster cl { s.cluster cl with fspillBase := bitsOf v 55 12 * 4096, spillRefused := false }

/-! ## Core and thread registers (07 R178, 06 R151, R161) -/

/-- A write of CORECFG (07 R178): SLEEP at once, the rest recorded, and in effect at once where the condition of its
deferred effect holds now. -/
def State.corecfg (s : State) (c v : Nat) : State :=
  let k := s.core c
  let split := bitsOf v 37 35
  let pinned := s.pkg.handlerCore (granuleOfCore c) == some c
  let s := s.setCore c { k with
    sleepCfg := bitsOf v 39 38, clsSplit := if 5 ≤ split then k.clsSplit else split, mxOwn := bitsOf v 34 33
    h3 := if pinned then k.h3 else bitsOf v 32 32 == 1 }
  s.coreChanges c

/-- A write of SRSTATE: 0 stores the fixed seed (06 R151). -/
def State.srstateWrite (s : State) (c v : Nat) : State :=
  let w := BitVec.ofNat 64 v
  s.setCore c { s.core c with srstate := if w = 0 then 0x9E3779B97F4A7C15 else w }

/-- A write of FSTAT (06 R161). -/
def Thread.fstatWrite (th : Thread) (v : Nat) : Thread := { th with fstat := BitVec.ofNat 7 v }

/-! ## Registers without a behaviour of their own -/

/-- A write of a plain cluster or partition register by its access codes (07 R181, R182; 17 R376); any other number
changes nothing. -/
def State.plainWrite (s : State) (p cl csr v : Nat) : State :=
  let k := s.part p
  let u := s.cluster cl
  if csr = 0x023 then s.setCluster cl { u with fspillSize := bitsOf v 31 0 }
  else if csr = 0x024 then s.setCluster cl { u with pspillBase := bitsOf v 55 12 * 4096 }
  else if csr = 0x025 then s.setCluster cl { u with pspillSize := bitsOf v 31 0 }
  else if csr = 0x080 then s.setPart p { k with domBase := bitsOf v 55 4 * 16 }
  else if csr = 0x084 then s.setPart p { k with s1root := bitsOf v 47 12 * 4096 }
  else if csr = 0x108 then s.setPart p { k with stvec := bitsOf v 55 3 * 8 }
  else if csr = 0x109 then s.setPart p { k with tfBase := bitsOf v 55 16 * 65536 }
  else if csr = 0x10A then
    s.setPart p { k with gpe := bitsOf v 48 48 == 1, quantum := bitsOf v 31 16, twait := bitsOf v 15 0 }
  else if csr = 0x10B then s.setPart p { k with gsaveBase := bitsOf v 55 16 * 65536 }
  else if csr = 0x10C then s.setPart p { k with gsaveSize := bitsOf v 31 0 }
  else s

/-! ## The capability block (01 R27, R28) -/

/-- A number keeping the bits of a test, of its low `n`. -/
def maskBits (n x : Nat) (keep : Nat → Bool) : Nat :=
  (List.range n).foldl (fun m i => if x.testBit i && keep i then m + 2 ^ i else m) 0

/-- A port's nibble: its trained width (01 R27). -/
def laneCode (lanes : Nat) : Nat := if lanes = 4 then 3 else if lanes = 2 then 2 else if lanes = 1 then 1 else 0

/-- A capability register as the physical function reads it, by its CSR number (01 R27). -/
def Package.capability (k : Package) (csr : Nat) : Nat :=
  if csr = 0x0C0 then
    k.stepping * 2 ^ 56 + k.clkMax * 2 ^ 48 + k.clkFloor * 2 ^ 40 + k.topo * 2 ^ 32 + bit k.safe * 2 ^ 24 + k.granUsable
  else if csr ≤ 0x0C6 then (k.capCluster[csr - 0x0C1]?).getD 0
  else if csr ≤ 0x0CC then (k.capChan[csr - 0x0C7]?).getD 0
  else
    ((List.range 8).map fun j => laneCode (((k.ports.find ((csr - 0x0CD) * 8 + j)).map (·.lanes)).getD 0) * 2 ^ (4 * j)).foldl
      (· + ·) 0

/-- The filtered view of a capability register, by its CSR number (01 R28). -/
def State.capability (s : State) (p csr : Nat) : Nat :=
  let own (g : Nat) : Bool := (s.part p).granules.contains g
  if csr = 0x0C0 then
    s.pkg.stepping * 2 ^ 56 + s.pkg.clkMax * 2 ^ 48 + s.pkg.clkFloor * 2 ^ 40 + maskBits 24 s.pkg.granUsable own
  else if csr ≤ 0x0C6 then
    let d := csr - 0x0C1
    maskBits 64 ((s.pkg.capCluster[d]?).getD 0) fun i => own (d * 4 + i / 16)
  else if csr ≤ 0x0CC then
    let d := csr - 0x0C7
    maskBits 64 ((s.pkg.capChan[d]?).getD 0) fun i => own (d * 4 + i / 16)
  else 0

/-! ## Access by CSR number (07 R175 to R177) -/

/-- Whether U may name a register (07 R177). -/
def csrAtU (n : Nat) : Bool := n ≤ 5 || (0x040 ≤ n && n ≤ 0x04F)

/-- Whether a register has cluster scope. -/
def csrOfCluster (n : Nat) : Bool := 0x021 ≤ n && n ≤ 0x05F

/-- The cluster an access reaches: at S the one in CLSEL, at U the thread's home cluster (07 R176). -/
def csrCluster (s : State) (th : Thread) : Nat :=
  if !th.supervisor then th.homeCluster
  else if th.clsel = 0x1FF then clusterOfCore (coreOfKey s.cur) else th.clsel.toNat

/-- Whether an access takes PRIV (07 R175): a register closed to U, or a cluster outside the partition. -/
def csrDenied (s : State) (th : Thread) (n : Nat) : Bool :=
  (!th.supervisor && !csrAtU n)
    || (th.supervisor && csrOfCluster n && !s.ownsCluster th.part (csrCluster s th))

/-- TSTAT (17 R376). -/
def tstat (th : Thread) : Nat :=
  match th.frames with
  | [] => 0
  | f :: _ =>
    f.vcount * 2 ^ 22 + f.xcount * 2 ^ 16 + f.cause.code * 2 ^ 8 + f.kind.code * 8 + bit f.ppriv * 4 + th.frames.length

/-- A launch-queue register by its number. -/
def lqRead (s : State) (p q n : Nat) : Nat :=
  let l := (s.part p).queue q
  if !s.hasQueue p q then 0
  else if n = 0x089 then l.base
  else if n = 0x08A then
    bit l.enable * 2 ^ 63 + bit l.mapped * 2 ^ 62 + bit l.pending * 2 ^ 61 + l.prio * 2 ^ 59 + l.size * 2 ^ 52
  else if n = 0x08B then l.head
  else if n = 0x08D then l.dom
  else 0

/-- A cluster register by its number (04 R98, R99; 07 R178, R181). -/
def clusterRead (s : State) (cl n : Nat) : Nat :=
  let u := s.cluster cl
  if n = 0x021 then u.parkArea * 2 ^ 16 + u.ringArea
  else if n = 0x022 then u.fspillBase
  else if n = 0x023 then u.fspillSize
  else if n = 0x024 then u.pspillBase
  else if n = 0x025 then u.pspillSize
  else if n ≤ 0x03F then
    let r := u.ring (n - 0x030)
    bit r.en * 2 ^ 63 + r.slotm1 * 2 ^ 32 + r.slotsz * 2 ^ 20 + r.base
  else if n ≤ 0x04F then
    let r := u.ring (n - 0x040)
    r.filled * 2 ^ 48 + r.free * 2 ^ 32 + r.rd * 2 ^ 16 + r.wr
  else
    let k := s.core (coreOfCluster cl (n - 0x050))
    k.sleepCfg * 2 ^ 38 + k.clsSplit * 2 ^ 35 + k.mxOwn * 2 ^ 33 + bit k.h3 * 2 ^ 32

/-- What reading a register gives, its reserved and write-only bits zero (00 R9, 07 R177). -/
def csrRead (s : State) (th : Thread) (n : Nat) : Nat :=
  let k := s.part th.part
  if n = 0x000 then th.fstat.toNat
  else if n = 0x001 then (s.core (coreOfKey s.cur)).srstate.toNat
  else if n = 0x002 then
    s.pkg.node * 2 ^ 47 + coreOfKey s.cur * 2 ^ 34 + s.cur % 4 * 2 ^ 32 + th.kind.code * 2 ^ 30 + th.part
  else if n = 0x003 then th.spanLen * 2 ^ 31 + th.spanOff * 2 ^ 21 + th.ownOff * 2 ^ 11 + th.ownLen
  else if n = 0x004 then th.frameBase.toNat
  else if n = 0x005 then s.now
  else if n = 0x020 then th.clsel.toNat
  else if csrOfCluster n then clusterRead s (csrCluster s th) n
  else if n = 0x080 then k.domBase
  else if n = 0x081 then k.hdom
  else if n = 0x082 then k.fdom
  else if n = 0x084 then k.s1root
  else if n = 0x086 then k.memSize / 65536 * 65536
  else if n = 0x087 then k.job
  else if n = 0x088 then th.lqsel.toNat
  else if 0x089 ≤ n ∧ n ≤ 0x08D then lqRead s th.part th.lqsel.toNat n
  else if 0x0C0 ≤ n ∧ n ≤ 0x0D2 then s.capability th.part n
  else if n = 0x100 then tstat th
  else if n = 0x101 then ((th.frames.head?).map (·.addr.toNat)).getD 0
  else if n = 0x108 then k.stvec
  else if n = 0x109 then k.tfBase
  else if n = 0x10A then bit k.gpe * 2 ^ 48 + k.quantum * 2 ^ 16 + k.twait
  else if n = 0x10B then k.gsaveBase
  else if n = 0x10C then k.gsaveSize
  else if 0x140 ≤ n ∧ n ≤ 0x155 then (k.counters.find (n - 0x140)).getD 0
  else 0

/-- The registers of the thread itself that a CSRW writes (07 R181, R182; 06 R161). -/
def Thread.csrWrite (th : Thread) (n v : Nat) : Thread :=
  if n = 0x000 then th.fstatWrite v
  else if n = 0x020 then { th with clsel := BitVec.ofNat 9 v }
  else if n = 0x088 then { th with lqsel := BitVec.ofNat 12 v }
  else th

/-- What writing a register does beside the thread; a register read-only at the level ignores it (07 R175). -/
def csrWrite (s : State) (th : Thread) (n v : Nat) : State :=
  let p := th.part
  let cl := csrCluster s th
  let q := th.lqsel.toNat
  if n = 0x001 then s.srstateWrite (coreOfKey s.cur) v
  else if n = 0x021 then s.tsarea cl v
  else if n = 0x022 then s.fspillbase cl v
  else if 0x030 ≤ n ∧ n ≤ 0x03F then s.ringCfg cl (n - 0x030) v
  else if 0x050 ≤ n ∧ n ≤ 0x05F then s.corecfg (coreOfCluster cl (n - 0x050)) v
  else if n = 0x081 then s.domWrite p false v
  else if n = 0x082 then s.domWrite p true v
  else if n = 0x083 then s.plbinv p v
  else if n = 0x085 then s.s1inv p v
  else if n = 0x089 then s.lqBase p q v
  else if n = 0x08A then s.lqCfg p q v
  else if n = 0x08C then s.lqNotify p q v
  else if n = 0x08D then s.lqDom p q v
  else if n = 0x160 then s.errclr p v
  else s.plainWrite p cl n v

/-! ## The host's BAR0 (15 R342, R343; 01 R27, R30; 03 R64; 04 R90; 22 R464, R465) -/

/-- The capability register at an offset of the block, by its CSR number. -/
def capAt (off : Nat) : Option Nat :=
  if off = 0 then some 0x0C0
  else
    let d := (off - 0x40) / 0x20
    if off < 0x40 ∨ 6 ≤ d then none
    else if (off - 0x40) % 0x20 = 0 then some (0x0C1 + d)
    else if (off - 0x40) % 0x20 = 8 then some (0x0C7 + d)
    else if (off - 0x40) % 0x20 = 16 then some (0x0CD + d)
    else none

/-- The launch queue and the register of it, by its CSR number, at an offset of a virtual function's BAR0. -/
def lqAt (off : Nat) : Option (Nat × Nat) :=
  if 0x100000 ≤ off ∧ off < 0x120000 then some ((off - 0x100000) / 0x20, 0x089 + off % 0x20 / 8)
  else if 0x180000 ≤ off ∧ off < 0x188000 then some ((off - 0x180000) / 8, 0x08D)
  else none

/-- One of the four counters of a port (22 R465). -/
def Port.counter (k : Port) (i : Nat) : Nat :=
  Nat.min (2 ^ 48 - 1) (if i = 0 then k.crcErr else if i = 1 then k.tagErr else if i = 2 then k.replayCount else k.stipLost)

/-- The 8 bytes at an aligned offset of a function's BAR0; the physical function has no launch queues
(log entry 93: DEDUCED, safe). -/
def State.barWord (s : State) (f off : Nat) : Nat :=
  if 0x10000 ≤ off ∧ off < 0x11000 then
    match capAt (off - 0x10000) with
    | some n => if f = 0 then s.pkg.capability n else s.capability (f - 1) n
    | none => 0
  else if f = 0 then
    if 0x210000 ≤ off ∧ off < 0x210000 + 32 * 48 then
      ((s.pkg.ports.find ((off - 0x210000) / 32)).map (·.counter (off % 32 / 8))).getD 0
    else 0
  else
    match lqAt off with
    | some (q, n) => lqRead s (f - 1) q n
    | none =>
      if 0x200000 ≤ off ∧ off < 0x200000 + 8 * 22 then ((s.part (f - 1)).counters.find ((off - 0x200000) / 8)).getD 0 else 0

/-- Whether BAR0 admits an access: 4 or 8 bytes, aligned to its size (15 R343). -/
def barAligned (off size : Nat) : Bool := (size == 4 || size == 8) && off % size == 0 && decide (off < 0x400000)

/-- What a read of BAR0 returns (15 R343): a 4-byte one its half. -/
def State.barRead (s : State) (f off size : Nat) : Nat :=
  if !barAligned off size then 0
  else if size = 8 then s.barWord f off
  else s.barWord f (off / 8 * 8) / 2 ^ (off % 8 * 8) % 2 ^ 32

/-- A write of 4 or 8 bytes to a register that holds `old`, as a write of the whole register: the other half stands as it is,
or is zero in a register that is only written (15 R343). -/
def halfWrite (old off size data : Nat) : Nat :=
  if size = 8 then data % 2 ^ 64
  else if off % 8 = 0 then old / 2 ^ 32 * 2 ^ 32 + data % 2 ^ 32
  else data % 2 ^ 32 * 2 ^ 32 + old % 2 ^ 32

/-- A write of BAR0 (15 R343). The high half of a register that is only written has no effect. -/
def State.barWrite (s : State) (f off size data : Nat) : State :=
  let p := f - 1
  let high := size = 4 ∧ off % 8 = 4
  if f = 0 ∨ !barAligned off size then s
  else if off / 8 * 8 = 0x200100 then (if high then s else s.errclr p (halfWrite 0 off size data))
  else
    match lqAt off with
    | none => s
    | some (q, n) =>
      let v := halfWrite (lqRead s p q n) off size data
      if n = 0x089 then s.lqBase p q v
      else if n = 0x08A then s.lqCfg p q v
      else if n = 0x08C then (if high then s else s.lqNotify p q v)
      else if n = 0x08D then s.lqDom p q v
      else s

/-! ## Operations of the machine that write registers -/

/-- LQ_NOTIFY. -/
def execLqNotify (p q v : Nat) (s : State) : Out := .next (s.lqNotify p q v)

/-- LQ_CFG_WRITE. -/
def execLqCfgWrite (p q v : Nat) (s : State) : Out := .next (s.lqCfg p q v)

/-- LQ_BASE_WRITE. -/
def execLqBaseWrite (p q v : Nat) (s : State) : Out := .next (s.lqBase p q v)

/-- LQ_DOM_WRITE. -/
def execLqDomWrite (p q v : Nat) (s : State) : Out := .next (s.lqDom p q v)

/-- ERRCLR. -/
def execErrclr (p v : Nat) (s : State) : Out := .next (s.errclr p v)

/-- PLBINV. -/
def execPlbinv (p v : Nat) (s : State) : Out := .next (s.plbinv p v)

/-- S1INV. -/
def execS1inv (p v : Nat) (s : State) : Out := .next (s.s1inv p v)

/-- TSAREA_WRITE. -/
def execTsareaWrite (cl v : Nat) (s : State) : Out := .next (s.tsarea cl v)

/-- RING_ENABLE: a write that finds EN = 0; it changes nothing otherwise. -/
def execRingEnable (cl n v : Nat) (s : State) : Out :=
  .next (if ((s.cluster cl).ring n).en then s else s.ringCfg cl n v)

/-- RING_DISABLE: a write that finds EN = 1; it changes nothing otherwise. -/
def execRingDisable (cl n v : Nat) (s : State) : Out :=
  .next (if ((s.cluster cl).ring n).en then s.ringCfg cl n v else s)

/-- CORECFG_WRITE. -/
def execCorecfgWrite (c v : Nat) (s : State) : Out := .next (s.corecfg c v)

/-- CLSSPLIT_CHANGE. -/
def execClssplitChange (c : Nat) (s : State) : Out := .next (s.clssplitChange c)

/-- MXOWN_CHANGE. -/
def execMxownChange (c : Nat) (s : State) : Out := .next (s.mxownChange c)

/-- H3_CHANGE. -/
def execH3Change (c : Nat) (s : State) : Out := .next (s.h3Change c)

/-- SRSTATE_WRITE. -/
def execSrstateWrite (c v : Nat) (s : State) : Out := .next (s.srstateWrite c v)

/-- Whether a thread's matrix instruction still owes its flags (06 R162). -/
def State.owesFlags (s : State) (t : Nat) : Bool :=
  match (s.core (coreOfKey t)).mx with
  | some j => j.slot == some (t % 4)
  | none => false

/-- FSTAT_WRITE: it waits until the thread's matrix instruction has ended and its flags have landed (06 R162). -/
def execFstatWrite (t v : Nat) (s : State) : Out :=
  match s.thread t with
  | none => .next s
  | some th => .next (if s.owesFlags t then s.unitDone (coreOfKey t) else s.setThread t (th.fstatWrite v))

/-- HDOM_FDOM_WRITE. -/
def execHdomFdomWrite (p : Nat) (fabric : Bool) (v : Nat) (s : State) : Out := .next (s.domWrite p fabric v)

/-- FSPILLBASE_WRITE. -/
def execFspillbaseWrite (cl v : Nat) (s : State) : Out := .next (s.fspillbase cl v)

/-- REGISTER_WRITE. -/
def execRegisterWrite (p cl csr v : Nat) (s : State) : Out := .next (s.plainWrite p cl csr v)

end Sys2Proof.Machine
end

