-- ==== Sys2Proof/Machine/Distributor.lean ====
section
/-!
DEFINITION. The master distributor: launch queues and pools, acceptance, completions, gang starts and gang preemption
(spec/03 R63 to R75, spec/02 R51, R52, spec/17 R382 to R385, spec/19 R414, R417, R418).
-/

namespace Sys2Proof.Machine

/-! ## Reading launch records (03 R67) -/

/-- The words of a byte string. -/
def wordsOf (bs : List Byte) (n : Nat) : List Word :=
  (List.range n).map fun i => BitVec.ofNat 64 (leNat ((bs.drop (8 * i)).take 8))

/-- Whether a record read needs host memory that the partition's interface does not reach now (15 R344, 22 R466). -/
def State.recordWaits (s : State) (p va : Nat) : Bool :=
  s.hostWaits p controlDie va || (match readPage s p controlDie (lineOf va) with
    | .error r => r.place == 5 && r.reason == 3
    | .ok _ => false)

/-- The read of a record goes on from what has been read of it: the next of its parts (05 R118), and with the last of them the record
is there. A refused read or a poisoned granule counts CMPLREF, and the record is read again after a later notify (03 R67). -/
def State.readRecord (s : State) (p q : Nat) (l : LaunchQueue) (va : Nat) : State :=
  let fail (s : State) : State :=
    (s.setQueue p q { (s.part p).queue q with refusedRead := true, begun := [] }).count p ctrCmplref
  match s.serviceLoad p controlDie va with
  | .error r => fail (s.s2refusal p va r)
  | .ok (s, bs, bad) =>
    let begun := l.begun ++ bs
    if bad then fail s
    else if begun.length < 128 then s.setQueue p q { (s.part p).queue q with begun := begun }
    else s.setQueue p q { (s.part p).queue q with record := some (wordsOf begun 16), begun := [] }

/-- LAUNCH_RECORD_READ: a step of the read of the head record of a mapped queue by the control die. -/
def execLaunchRecordRead (p q : Nat) (s : State) : Out :=
  let l := (s.part p).queue q
  let va := l.base + l.head % 2 ^ l.size * 128 + l.begun.length
  if !l.mapped || !l.enable || l.head == l.tail || l.record.isSome || l.refusedRead || s.recordWaits p va then .next s
  else .next (s.readRecord p q l va)

/-! ## Mapping (03 R68, R69; 19 R417) -/

/-- Distributor slots (03 R68). -/
def distSlots : Nat := 256

/-- Every PENDING queue, with its partition and number. -/
def State.pendingQueues (s : State) : List ((Nat × Nat) × LaunchQueue) :=
  (s.parts.filter fun e => !e.2.ending).flatMap fun e =>
    (e.2.queues.filter fun l => l.2.pending && l.2.enable && !l.2.mapped).map fun l => ((e.1, l.1), l.2)

/-- Whether a waiting queue is served before another: PRIO, then the oldest PENDING, then the lower numbers. -/
def pendingBefore (a b : (Nat × Nat) × LaunchQueue) : Bool :=
  decide (b.2.prio < a.2.prio) || (a.2.prio == b.2.prio && (decide (a.2.pendingSince < b.2.pendingSince)
    || (a.2.pendingSince == b.2.pendingSince && (decide (a.1.1 < b.1.1) || (a.1.1 == b.1.1 && decide (a.1.2 < b.1.2))))))

/-- Slots that a partition's queues hold. -/
def Dist.held (d : Dist) (p : Nat) : Nat := d.slots.countP (·.1 == p)

/-- The mapped empty queue, among those of some partitions, that has been idle longest. -/
def State.idlest (s : State) (ok : Nat → Bool) : Option (Nat × Nat) :=
  ((s.dist.slots.filter fun x =>
      let l := (s.part x.1).queue x.2
      ok x.1 && l.head == l.tail).foldl
    (fun m x =>
      let since := ((s.part x.1).queue x.2).idleSince
      match m with
      | some (b, _) => if since < b then some (since, x) else m
      | none => some (since, x)) none).map (·.2)

/-- The slot a waiting queue of a partition may take: none to unmap when one is free
(log entry 72: DESIGN CHOICE, unsafe). -/
def State.slotToTake (s : State) (p : Nat) : Option (Option (Nat × Nat)) :=
  if s.dist.slots.length < distSlots then some none
  else
    let above (x : Nat) : Bool := decide ((s.part x).minSlots < s.dist.held x)
    let ok (x : Nat) : Bool := if s.dist.held p < (s.part p).minSlots then above x else x == p
    (s.idlest ok).map some

/-- Unmap a queue, which is empty in this step (19 R417). -/
def State.unmapQueue (s : State) (x : Nat × Nat) : State :=
  let s := s.setQueue x.1 x.2 { (s.part x.1).queue x.2 with mapped := false, record := none, begun := [] }
  { s with dist := { s.dist with slots := s.dist.slots.filter (· != x) } }

/-- Map a queue: its head record keeps the wait that it has (03 R68). -/
def State.mapQueue (s : State) (x : Nat × Nat) : State :=
  let l := (s.part x.1).queue x.2
  let s := s.setQueue x.1 x.2 { l with mapped := true, pending := false, idleSince := s.now }
  { s with dist := { s.dist with slots := s.dist.slots ++ [x] } }

/-- QUEUE_MAPPING: the first waiting queue, in order, that can have a slot. -/
def execQueueMapping (s : State) : Out :=
  let pick := (s.pendingQueues.filter fun e => (s.slotToTake e.1.1).isSome).foldl
    (fun m e => match m with
      | none => some e
      | some b => if pendingBefore e b then some e else m) none
  match pick with
  | none => .next s
  | some e =>
    match s.slotToTake e.1.1 with
    | some (some x) => .next ((s.unmapQueue x).mapQueue e.1)
    | some none => .next (s.mapQueue e.1)
    | none => .next s

/-! ## Completions (03 R67) -/

/-- A store of an agent of the control die to translated memory, at the home of its line or in the unit of an ATOM page
(04 R112, 05 R132). A sealed range takes none (20 R435). -/
def State.storeControl (s : State) (p va : Nat) (bs : List Byte) : Except Refused State :=
  match nameOf va with
  | .translated =>
    if (s.part p).sealedAt va then .error (refuse 1 2)
    else if atomPage s p controlDie (lineOf va) then
      ((translate s p controlDie (lineOf va) true).bind (·.allows true true)).map fun g =>
        (s.storeAt p (g.place va) bs).wakeWatch (g.place va)
    else (s.performHome p controlDie va bs.length true fun _ => some bs).map (·.1)
  | _ => .error (refuse 0 3)

/-- Write one word of a completion at system scope (03 R67). -/
def State.completionWord (s : State) (p va : Nat) (w : Word) : Except Refused State := s.storeControl p va (leBytes 8 w.toNat)

/-- The word of a completion that is written next, and its address: VALUE, and then STATUS with CTAG (03 R67). CADDR is 16-byte
aligned. -/
def Completion.next (x : Completion) : Nat × Word :=
  if x.second then (x.caddr / 16 * 16 + 8, BitVec.ofNat 64 (x.status.toNat * 2 ^ 48 + x.ctag)) else (x.caddr / 16 * 16, x.value)

/-- Whether the write of a completion waits for the interface of the partition to reach RUN (15 R344). -/
def State.completionWaits (s : State) (x : Completion) : Bool := s.hostWaits x.part controlDie (lineOf x.next.1)

/-- A record completes: the words of its completion are to be written, where it asks for one (03 R67). -/
def State.complete (s : State) (p caddr ctag : Nat) (value : Word) (status : BitVec 16) : State :=
  if caddr = 0 then s
  else { s with dist := { s.dist with writes := s.dist.writes ++ [⟨p, caddr, ctag, value, status, false⟩] } }

/-- A completion leaves those that are to be written, or another takes its place. -/
def Dist.rewrite (d : Dist) (x : Completion) (y : Option Completion) : Dist :=
  { d with writes := d.writes.flatMap fun z => if z == x then y.toList else [z] }

/-- The next word of a completion is written; a refused write counts CMPLREF and ends it (19 R418). -/
def State.writeCompletion (s : State) (x : Completion) : State :=
  match s.completionWord x.part x.next.1 x.next.2 with
  | .error r =>
    let s := (s.s2refusal x.part x.next.1 r).count x.part ctrCmplref
    { s with dist := s.dist.rewrite x none }
  | .ok s => { s with dist := s.dist.rewrite x (if x.second then none else some { x with second := true }) }

/-- The oldest notice reaches the distributor. -/
def State.takeNotice (s : State) : State :=
  match s.dist.notices with
  | [] => s
  | n :: rest =>
    let s := { s with dist := { s.dist with notices := rest } }
    match s.dist.accepted.find n.record with
    | none => s
    | some a =>
      { s with dist := { s.dist with accepted := s.dist.accepted.erase n.record } }.complete a.part a.caddr a.ctag n.value n.status

/-- COMPLETION_NOTICE: a word of the oldest completion that need not wait, or else the oldest notice. -/
def execCompletionNotice (s : State) : Out :=
  match s.dist.writes.find? fun x => !s.completionWaits x with
  | some x => .next (s.writeCompletion x)
  | none => .next s.takeNotice

/-! ## Sources (03 R70, R75; 17 R385) -/

/-- A source of R70. -/
inductive Source where
  | queue (p q : Nat)
  | pool (p : Nat)
  | gang (n : Nat)
  deriving DecidableEq, Repr

/-- The number of a source, by which sources of equal priority take turns. -/
def Source.number : Source → Nat
  | .queue p q => p * 65536 + q
  | .pool p => 24 * 65536 + p
  | .gang n => 25 * 65536 + n

/-- The source of a number. -/
def sourceOf (n : Nat) : Source :=
  if n < 24 * 65536 then .queue (n / 65536) (n % 65536)
  else if n < 25 * 65536 then .pool (n - 24 * 65536)
  else .gang (n - 25 * 65536)

/-- Whether a pool entry is before another: the higher priority, then the older. -/
def poolBefore (a b : PoolEntry) : Bool :=
  decide (wbits b.ctl 55 54 < wbits a.ctl 55 54) || (wbits b.ctl 55 54 == wbits a.ctl 55 54 && decide (a.seq < b.seq))

/-- The head of a pending-launch pool (03 R75). -/
def Part.poolHead (k : Part) : Option PoolEntry :=
  k.pool.foldl (fun m e => match m with
    | none => some e
    | some b => if poolBefore e b then some e else m) none

/-- Word `i` of a record. -/
def rword (ws : List Word) (i : Nat) : Word := (ws[i]?).getD 0

/-- The head record of a queue: read, and of a partition that no teardown ends (03 R70; 22 R462). -/
def State.queueHead (s : State) (p q : Nat) : Option (List Word) :=
  let l := (s.part p).queue q
  if l.mapped && l.enable && l.head != l.tail && !(s.part p).ending then l.record else none

/-- Whether an ORDERED record waits for an earlier one of its queue to complete (03 R66). -/
def State.orderedHeld (s : State) (p q : Nat) (ws : List Word) : Bool :=
  wbits (rword ws 0) 53 53 == 1 && s.dist.accepted.any fun e => e.2.part == p && e.2.queue == q

/-- Base priority of a source that has a head, and the cycle since which that waits: a pool's entry since it entered the pool, a
queue's record since it became the head (03 R70; log entry 97: DEDUCED, unsafe). -/
def State.sourceHead (s : State) : Source → Option (Nat × Nat)
  | .queue p q => (s.queueHead p q).map fun _ => (((s.part p).queue q).prio, ((s.part p).queue q).headSince)
  | .pool p => (s.part p).poolHead.map fun e => (wbits e.ctl 55 54, e.since)
  | .gang n => (s.gangs.find n).bind fun g => if g.preempted then some (g.prio, g.startedAt) else none

/-- Every source, in order of number. -/
def State.sources (s : State) : List Source :=
  ((List.range 24).flatMap fun p => (List.range (s.part p).queueCount).map (.queue p ·))
    ++ (List.range 24).map .pool
    ++ ((List.range s.nextGang).filter fun n => (s.gangs.find n).isSome).map .gang

/-- What tells one head of a source from the next. -/
def State.headId (s : State) : Source → Nat
  | .queue p q => ((s.part p).queue q).head
  | .pool p => ((s.part p).poolHead.map (·.seq)).getD 0
  | .gang n => ((s.gangs.find n).map (·.startedAt)).getD 0

/-- What the head of a source has gained by waiting (03 R70). -/
def State.boost (s : State) (x : Source) : Nat :=
  match s.dist.boosts.find x.number with
  | some (b, id) => if id = s.headId x then b else 0
  | none => 0

/-- Effective priority of a source: its base and what it has gained by waiting, at most 3. -/
def State.effective (s : State) (x : Source) (base : Nat) : Nat := Nat.min 3 (base + s.boost x)

/-- Whether a cluster has refused the head of a source, which waits for that cluster's next report (03 R71). -/
def State.headRefused (s : State) (x : Source) : Bool := (s.dist.refusedAt.find x.number).any fun r => r.1 == s.headId x

/-- The sources that have a head, in the order of R70: the highest effective priority, and round-robin among equals. -/
def State.competing (s : State) : List Source :=
  let all := s.sources.filter fun x => (s.sourceHead x).isSome && !s.headRefused x
  let turn := (all.filter fun x => decide (s.dist.lastSource < x.number))
    ++ all.filter fun x => decide (x.number ≤ s.dist.lastSource)
  [3, 2, 1, 0].flatMap fun pr => turn.filter fun x => (s.sourceHead x).any fun h => s.effective x h.1 == pr

/-- SOURCE_PRIORITY_AGEING (03 R70). -/
def execSourcePriorityAgeing (src : Nat) (s : State) : Out :=
  let x := sourceOf src
  match s.sourceHead x with
  | some (base, since) =>
    let b := s.boost x
    if base + b < 3 ∧ since + (b + 1) * 65536 ≤ s.now then
      .next { s with dist := { s.dist with boosts := s.dist.boosts.put src (b + 1, s.headId x) } }
    else .next s
  | none => .next s

/-! ## Acceptance (03 R67, R70 to R75; 19 R414) -/

/-- The distributor after a source's head is accepted or has failed. -/
def Dist.leave (d : Dist) (x : Source) : Dist :=
  { d with lastSource := x.number, boosts := d.boosts.erase x.number }

/-- HEAD passes a record. -/
def State.passHead (s : State) (p q : Nat) : State :=
  let l := (s.part p).queue q
  let head := (l.head + 1) % 65536
  let s := s.setQueue p q { l with
    head := head, record := none, begun := [], headSince := s.now, idleSince := if head = l.tail then s.now else l.idleSince }
  { s with dist := s.dist.leave (.queue p q) }

/-- CADDR and CTAG of a record. -/
def recordTag (ws : List Word) : Nat × Nat := ((rword ws 12).toNat, wbits (rword ws 13) 47 0)

/-- A record that fails completes with its STATUS (19 R414). -/
def State.failRecord (s : State) (p q : Nat) (ws : List Word) (status : Nat) : State :=
  let (caddr, ctag) := recordTag ws
  ((s.passHead p q).count p ctrHdrfail).complete p caddr ctag 0 (BitVec.ofNat 16 status)

/-- The first launch of a partition freezes its tenant measurement (15 R345); from then on the messages of a restored image are
delivered (16 R362). -/
def State.firstLaunch (s : State) (p : Nat) : State :=
  s.setPart p { s.part p with launched := true, frozen := true }

/-- Note an accepted record that awaits the resolve of its future, which carries its mark (03 R67). -/
def State.acceptRecord (s : State) (p q : Nat) (ws : List Word) (f : Word) : State :=
  let (caddr, ctag) := recordTag ws
  let n := s.dist.nextRecord
  let a : Accepted := ⟨p, q, f, caddr, ctag, ((s.part p).queue q).head, false⟩
  let s := (s.passHead p q).firstLaunch p
  let s := { s with dist := { s.dist with accepted := s.dist.accepted.put n a, nextRecord := n + 1 } }
  let cl := handleCluster f
  match (s.cluster cl).futRef f with
  | .live e => s.setCluster cl ((s.cluster cl).putFuture f { e with mark := some n })
  | _ => s

/-- The launch of a record under its queue's domain (04 R90). -/
def recordLaunch (p : Nat) (l : LaunchQueue) (ws : List Word) : Launch :=
  ⟨p, rword ws 0, (rword ws 1).toNat, (ws.drop 2).take 6, (ws.drop 8).take 4, l.dom⟩

/-- The launch of a pool entry under its issuer's domain. -/
def poolLaunch (p : Nat) (e : PoolEntry) : Launch := ⟨p, e.ctl, e.entry, e.args, [], e.dom⟩

/-- STATUS of a record that fails by itself (19 R414); an ENTRY that is not 8-byte aligned fails nothing (02 R34; log entry 99:
DEDUCED, unsafe)
(log entry 71: DEDUCED, unsafe). -/
def State.recordFault (s : State) (l : Launch) (ws : List Word) : Option Nat :=
  if 4 ≤ l.op then some 0x0402
  else if wbits l.ctl 46 0 ≠ 0 ∨ wbits (rword ws 13) 63 48 ≠ 0 ∨ rword ws 14 ≠ 0 ∨ rword ws 15 ≠ 0 then some 0x0403
  else if l.op ≠ 0 ∧ !s.targetOk l then some 0x0406
  else none

/-- The header KIND that an OP must match. -/
def opKind (op : Nat) : Nat := if op = 2 then kindField else kindDie

/-- What the distributor finds for a gang. -/
inductive Found where
  | fails (status value : Nat)
  | waits
  | plan (h : Header) (p : Plan)
  deriving DecidableEq, Repr

/-- Check a gang and choose its placement (03 R72, 19 R414). -/
def State.findGang (s : State) (l : Launch) : Found :=
  if !s.targetOk l then .fails 0x0406 l.entry
  else if s.headerWaits l.part controlDie l.dom l.entry then .waits
  else
    match s.header l.part controlDie l.dom l.entry [opKind l.op] with
    | .error (st, v) => .fails st v
    | .ok h =>
      match s.gangFault l h with
      | some st => .fails st l.entry
      | none =>
        match s.choose l.part l.fused h (s.plans l h) with
        | some p => .plan h p
        | none => .waits

/-- A record or pool entry that a cluster refused (03 R71)
(log entry 77: DEDUCED, unsafe). -/
def State.refusedBy (s : State) (x : Source) (cl : Nat) : State :=
  { s with dist := { s.dist with refusedAt := s.dist.refusedAt.put x.number (s.headId x, cl) } }

/-- The cluster of a root task: by the view, one with an empty slot and the most free descriptors, the lowest on a tie
(03 R74). -/
def State.rootCluster (s : State) (l : Launch) : Option Nat :=
  let cls := (s.clustersOf l.part).filter fun cl => l.target == 31 || granuleOfCluster cl == l.target
  (cls.foldl (fun m cl =>
    match s.dist.views.find cl with
    | some r =>
      if r.slots.any (· != 0) && r.descriptors != 0 then
        match m with
        | some (b, c) => if b < r.descriptors || (b == r.descriptors && decide (cl < c)) then some (r.descriptors, cl) else m
        | none => some (r.descriptors, cl)
      else m
    | none => m) none).map (·.2)

/-- The task of a root launch (03 R74). -/
def rootTask (l : Launch) (f : Word) : Task where
  entry := l.entry
  args := l.args
  tiles := l.tiles
  prio := l.prio
  pdef := false
  restart := false
  linked := false
  count := 0
  future := f
  parent := 0
  dom := l.dom
  part := l.part
  state := .waiting
  frame := none
  hdr := none
  restarts := 0
  level := l.prio
  since := 0
  clsCore := none
  fetch := []
  fill := []
  preempted := false

/-- Try a root task's record: an entry and a descriptor that a stalled thread is owed go to that (19 R400, R422). -/
def State.tryRoot (s : State) (p q : Nat) (ws : List Word) (l : Launch) : Option State :=
  match s.rootCluster l with
  | none => none
  | some cl =>
    if !s.satisfied cl p 1 || !s.noneOwed cl p then some (s.refusedBy (.queue p q) cl)
    else
      let (f, s) := s.allocate cl p false false .task
      let s := s.acceptRecord p q ws f
      let views := match s.dist.views.find cl with
        | some r => s.dist.views.put cl { r with descriptors := r.descriptors - 1 }
        | none => s.dist.views
      some ({ s with dist := { s.dist with views := views } }.newTask cl (rootTask l f))

/-- Try a gang's record: its future is an entry of the lowest cluster it occupies (log entry 114: DESIGN CHOICE, unsafe). One that
can never be placed leaves at once, ORDERED or not (19 R414). -/
def State.tryGangRecord (s : State) (p q : Nat) (ws : List Word) (l : Launch) : Option State :=
  match s.findGang l with
  | .fails st _ => some (s.failRecord p q ws st)
  | .waits => none
  | .plan h pl =>
    let cl := (pl.clusters.head?).getD 0
    if s.orderedHeld p q ws then none
    else if !s.satisfied cl p 0 || !s.noneOwed cl p then some (s.refusedBy (.queue p q) cl)
    else
      let (f, s1) := s.allocate cl p false false .gang
      match s1.placeGang l h pl f with
      | .error e => some (s.refusedBy (.queue p q) e)
      | .ok s2 => some (s2.acceptRecord p q ws f)

/-- Try the head record of a queue: a failing one leaves at once, any other once its ORDERED condition is met (03 R66, R70; 19
R414). -/
def State.tryQueue (s : State) (p q : Nat) (ws : List Word) : Option State :=
  let l := recordLaunch p ((s.part p).queue q) ws
  match s.recordFault l ws with
  | some st => some (s.failRecord p q ws st)
  | none =>
    if 2 ≤ l.op then s.tryGangRecord p q ws l
    else if s.orderedHeld p q ws then none
    else if l.op = 1 then s.tryRoot p q ws l
    else
      let (caddr, ctag) := recordTag ws
      some ((s.passHead p q).complete p caddr ctag 0 0)

/-- An entry leaves its pool (03 R75). -/
def State.leavePool (s : State) (p : Nat) (e : PoolEntry) : State :=
  let k := s.part p
  let s := (s.setPart p { k with pool := k.pool.filter (·.seq != e.seq) }).poolLeft p
  { s with dist := s.dist.leave (.pool p) }

/-- Try the head of a pool. -/
def State.tryPool (s : State) (p : Nat) (e : PoolEntry) : Option State :=
  let l := poolLaunch p e
  match s.findGang l with
  | .fails st v =>
    some (((s.leavePool p e).post e.future (.poisonVal e.future (BitVec.ofNat 64 v) (BitVec.ofNat 16 st))).count p ctrHdrfail)
  | .waits => none
  | .plan h pl =>
    match s.placeGang l h pl e.future with
    | .error cl => some (s.refusedBy (.pool p) cl)
    | .ok s => some (s.leavePool p e)

/-- The slots a gang reserves while placed. -/
def Gang.reserved (g : Gang) : List Nat := if g.fused then g.clusters.flatMap clusterSlots else g.slots

/-- The field or die of a gang. -/
def Gang.unit (g : Gang) : Nat :=
  let c := coreOfKey ((g.slots.head?).getD 0)
  if g.die then dieOfCore c else granuleOfCore c

/-- Try to place a preempted gang again in what it left, where R24 still admits it (17 R385). -/
def State.tryResume (s : State) (n : Nat) (g : Gang) : Option State :=
  let res := g.reserved
  let plan : Plan := ⟨g.die, g.unit, g.slots⟩
  let framesFree := g.frames.all fun f => fitsAt (s.cluster f.1).frames f.2 g.hdr.tsframe
  let len := (g.hdr.tpc + 1) * g.hdr.clsscr
  let spansFree := g.spans.all fun x =>
    fitsAt ((s.cluster (clusterOfCore x.1)).clsOf x.1) x.2 len && decide (x.2 + len ≤ (s.core x.1).clsNow * 256)
  if s.eligible g.part plan g.fused && s.torusFits g.hdr g.die g.unit && framesFree && spansFree then
    let s := g.frames.foldl (fun s f =>
      let k := s.cluster f.1
      s.setCluster f.1 { k with frames := k.frames ++ [(f.2, g.hdr.tsframe)] }) s
    let s := g.spans.foldl (fun s x => s.takeCls x.1 x.2 len) s
    let s := s.clearWay g.part g.die g.unit res
    some { s with
      gangs := s.gangs.put n { g with preempted := false, started := false, startedAt := s.now }
      dist := g.clusters.foldl (fun d cl => d.debit g.hdr res cl) (s.dist.leave (.gang n)) }
  else none

/-- Try the head of a source: none when it cannot be placed yet. -/
def State.trySource (s : State) : Source → Option State
  | .queue p q => (s.queueHead p q).bind (s.tryQueue p q)
  | .pool p => (s.part p).poolHead.bind (s.tryPool p)
  | .gang n => (s.gangs.find n).bind (s.tryResume n)

/-- RECORD_ACCEPTANCE: the first competing source whose head can be placed or fails. -/
def execRecordAcceptance (s : State) : Out := .next ((s.competing.findSome? s.trySource).getD s)

/-! ## The supervisor thread's move (03 R73) -/

/-- A held trap of a thread is entered when its accesses have settled. -/
def State.heldStep (s : State) (t : Nat) : State :=
  match s.thread t with
  | some th => s.enterHeld t th
  | none => s

/-- Whether a wait has its answer at hand, which its instruction completes with, or the future of an instruction that goes on with
it. -/
def Wait.answered : Wait → Bool
  | .answer .. | .stale | .value .. | .refused _ | .status _ | .woken | .room _ => true
  | _ => false

/-- Whether the slot to which a supervisor thread is to move is still one that R73 gives: empty, of no gang and no handler, on a core
that is not killed (21 R442). -/
def State.moveOpen (s : State) (dest : Nat) : Bool :=
  s.slotEmpty dest && !s.isHandlerSlot dest && !s.gangs.any fun e => e.2.keeps dest

/-- The gang that waits for the slot of a supervisor thread. -/
def State.gangWaiting (s : State) (t : Nat) : Option Gang :=
  (s.gangs.find? fun e => !e.2.started && e.2.keeps t).map (·.2)

/-- The destination of a supervisor thread is chosen anew, while a gang waits for its slot (03 R73). -/
def State.chooseMove (s : State) (p : Nat) : State :=
  let s := s.setPart p { s.part p with moveTo := none }
  match s.supervisorSlot p with
  | none => s
  | some t =>
    match s.gangWaiting t with
    | some g => s.clearWay p g.die g.unit g.reserved
    | none => s

/-- SUPERVISOR_MOVE: out of a slot that a gang has reserved, once its accesses are complete at .p; a deferred cause is
delivered first (17 R366). The thread issues nothing meanwhile but an instruction whose wait is over, which completes. A destination
that is none any more is chosen anew. -/
def execSupervisorMove (p : Nat) (s : State) : Out :=
  match (s.part p).moveTo.filter s.moveOpen, s.supervisorSlot p with
  | some dest, some t =>
    match s.thread t with
    | none => .next s
    | some th =>
      if th.trap.isSome then .next ((s.progress t).heldStep t)
      else if th.wait.answered then .next s
      else
        let (s, th) := s.abandon t th
        if th.wait.rests then .next (s.setThread t th)
        else if !th.deferred.isEmpty then .next (s.takeDeferred t th)
        else if !th.completeAt .p then .next ((s.setThread t th).settleStep t)
        else
          let (s, th) := s.flushUnit t th
          let s := (s.dropThread t).setPart p { s.part p with moveTo := none }
          let s := s.setThread dest { th with ahead := [], stuck := none, held := s.now }
          .next ((s.acquire (coreOfKey dest) .p).wakeCore (coreOfKey dest))
  | _, _ => .next (s.chooseMove p)

/-! ## Gang start (02 R51, R52; 03 R72; 17 R385) -/

/-- A gang's thread at its first instruction (02 R52, 07 R180). -/
def gangThread (n : Nat) (g : Gang) (i t : Nat) : Thread :=
  let c := coreOfKey t
  let cl := clusterOfCore c
  let th := Thread.fresh (BitVec.ofNat 56 g.entry) .gang g.part g.dom g.hdr
  let off := ((g.spans.find? (·.1 == c)).map (·.2)).getD 0
  let j := g.slots.countP fun u => coreOfKey u == c && decide (u < t)
  let base := ((g.frames.find? (·.1 == cl)).map fun f => frameAddress cl f.2).getD 0
  let th := { th with
    x := entryRegs g.hdr.xcount g.args (BitVec.ofNat 64 i) (BitVec.ofNat 64 g.hdr.gthreads), frameBase := base
    homeCluster := cl
    gang := some n, gangIndex := i }
  if g.hdr.clsscr = 0 then th
  else { th with
    spanOff := off, spanLen := (g.hdr.tpc + 1) * g.hdr.clsscr, ownOff := off + j * g.hdr.clsscr, ownLen := g.hdr.clsscr }

/-- Both TFULL bits of the cores on which a gang that uses the torus starts clear (11 R262). -/
def State.clearTfull (s : State) (g : Gang) : State :=
  if g.hdr.torus then
    (slotCores g.slots).foldl (fun s c => s.setCore c { s.core c with tfullA := false, tfullB := false }) s
  else s

/-- Restore what a preempted gang's cores held, with its poison (17 R384, R385; 21 R441). -/
def State.restoreCores (s : State) (g : Gang) : State :=
  let s := g.savedPlaces.foldl (fun s x => s.store x.1 x.2) s
  let s := { s with poison := g.savedBad ++ s.poison.filter fun a => !g.savedBad.contains a }
  g.savedCores.foldl (fun s e => s.setCore e.1 { s.core e.1 with
    tfullA := e.2.tfullA, tfullB := e.2.tfullB, contours := e.2.contours, passOut := e.2.passOut }) s

/-- Fuse the L1 caches of a gang's clusters (04 R97)
(log entry 73: DEDUCED, unsafe). -/
def State.fuse (s : State) (n : Nat) (g : Gang) : State :=
  if g.fused then
    g.clusters.foldl (fun s cl => (clusterCores cl).foldl (fun s c =>
      s.setCore c { s.core c with l1 := [], fused := some n }) s) s
  else s

/-- The threads of a gang take their slots, each with an acquire
(log entry 19: DEDUCED, unsafe). -/
def State.seat (s : State) (threads : List (Nat × Thread)) : State :=
  threads.foldl (fun s x =>
    let c := coreOfKey x.1
    let s := s.setThread x.1 { x.2 with dispatched := s.now, held := s.now }
    (s.acquire c .p).wakeCore c) s

/-- GANG_START: every reserved slot is empty, on cores that are not killed. -/
def execGangStart (n : Nat) (s : State) : Out :=
  match s.gangs.find n with
  | none => .next s
  | some g =>
    if g.started || g.preempted || !g.reserved.all s.slotEmpty then .next s
    else
      let s := s.fuse n g
      let threads := if g.saved.isEmpty then g.slots.mapIdx fun i t => (t, gangThread n g i t) else g.saved
      let s := (s.clearTfull g).restoreCores g
      let s := s.seat threads
      .next { s with gangs := s.gangs.put n { g with
        started := true, startedAt := s.now, saved := [], savedPlaces := [], savedCores := [], savedBad := [], saveAt := [] } }

/-! ## Gang preemption (17 R382 to R384) -/

/-- Cores on which a gang's thread holds the MXOWN slot. -/
def State.mxCores (s : State) (g : Gang) : List Nat :=
  (slotCores g.slots).filter fun c => g.slots.contains (c * 4 + (s.core c).mxNow)

/-- Units of 64 KiB that a gang's save takes with `mx` cores holding MXOWN (17 R384). -/
def Gang.saveUnits (g : Gang) (mx : Nat) : Nat :=
  let n := g.slots.length
  let bytes := 4096 + 1536 * n + 256 * g.hdr.clsscr * n + 2048 * g.hdr.tsframe * g.clusters.length + 25600 * mx
  (bytes + 65535) / 65536

/-- The gangs of a partition whose save occupies the save area: from their stop until they start again (17 R382 to R385). -/
def State.savedGangs (s : State) (p : Nat) : Map Gang := s.gangs.filter fun e => e.2.part == p && !e.2.saveAt.isEmpty

/-- The free units of a partition's save area, the lowest first, that a gang's save takes (17 R382, R384; log entry 13: DESIGN
CHOICE, unsafe). -/
def State.saveRoom (s : State) (g : Gang) : List Nat :=
  freeUnits ((s.savedGangs g.part).flatMap (·.2.saveAt)) (s.part g.part).gsaveSize (g.saveUnits (s.mxCores g).length) 0

/-- Whether a gang's save fits in the free part of its partition's save area, beside fewer than 8 others. -/
def State.saveFits (s : State) (g : Gang) : Bool :=
  decide ((s.savedGangs g.part).length < 8) && (s.saveRoom g).length == g.saveUnits (s.mxCores g).length

/-- The storage of a gang is free again, and its caches are its cores' own. -/
def State.releaseGang (s : State) (n : Nat) (g : Gang) : State :=
  let s := g.frames.foldl (fun s f =>
    let k := s.cluster f.1
    s.setCluster f.1 { k with frames := k.frames.filter fun x => x.1 != f.2 }) s
  let s := g.spans.foldl (fun s x =>
    let cl := clusterOfCore x.1
    let k := s.cluster cl
    s.setCluster cl { k with cls := k.cls.filter fun y => !(y.1 == x.1 && y.2.1 == x.2) }) s
  let s := if g.fused then
      g.clusters.foldl (fun s cl => (clusterCores cl).foldl (fun s c =>
        s.setCore c { s.core c with l1 := [], fused := none }) s) s
    else s
  { s with gangs := s.gangs.put n { g with preempted := true, started := false, stopping := false } }

/-- Whether a gang's launch could be placed at once without another gang (17 R382). -/
def State.placeable (s : State) (l : Launch) : Bool :=
  match s.findGang l with
  | .plan h p =>
    match s.placeGang l h p 0 with
    | .ok _ => true
    | .error _ => false
  | _ => false

/-- The view once a gang's slots and storage are free again. -/
def State.freshViews (s : State) (cls : List Nat) : State :=
  cls.foldl (fun s cl => { s with dist := { s.dist with views := s.dist.views.put cl (s.report cl) } }) s

/-- The state that a gang's removal alone would leave, as the distributor judges placements. -/
def State.without (s : State) (n : Nat) (g : Gang) : State :=
  let s := g.slots.foldl (fun s t => { s with threads := s.threads.erase t }) s
  (s.releaseGang n g).freshViews g.clusters

/-- Whether a gang qualifies as a victim for a waiting launch. -/
def State.gangVictimOk (s : State) (l : Launch) (n : Nat) (g : Gang) : Bool :=
  g.part == l.part && g.started && !g.preempted && decide (g.prio < l.prio) && g.hdr.rings == 0
    && g.slots.all (fun t => !((s.thread t).map (·.supervisor)).getD false)
    && s.saveFits g && (s.without n g).placeable l

/-- The victim: the lowest PRIO, then the latest start. -/
def State.gangVictim (s : State) (l : Launch) : Option (Nat × Gang) :=
  (s.gangs.filter fun e => s.gangVictimOk l e.1 e.2).foldl
    (fun m e => match m with
      | none => some e
      | some b =>
        if e.2.prio < b.2.prio ∨ (e.2.prio = b.2.prio ∧ b.2.startedAt < e.2.startedAt) then some e else m) none

/-- The gang launch that waits at the head of a source for 262,144 cycles. -/
def State.waitingGang (s : State) (x : Source) : Option Launch :=
  match x with
  | .queue p q =>
    match s.queueHead p q with
    | some ws =>
      if s.orderedHeld p q ws then none
      else
      let lq := (s.part p).queue q
      let l := recordLaunch p lq ws
      if (l.op = 2 ∨ l.op = 3) ∧ lq.headSince + 262144 ≤ s.now then some l else none
    | none => none
  | .pool p =>
    match (s.part p).poolHead with
    | some e => if e.since + 262144 ≤ s.now then some (poolLaunch p e) else none
    | none => none
  | .gang _ => none

/-- Stop a wait as the gang is stopped (17 R383): a released phase completes, and any other unfinished wait is abandoned. -/
def State.stopWait (s : State) (t : Nat) (th : Thread) : State × Thread :=
  match th.wait with
  | .released _ d taint => (s, { th with wait := .none }.setX d 0 taint |>.next 4)
  | w => if w.answered then (s, th) else s.abandon t th

/-- A gang's threads stop, and the root of its barrier channels lets its phases go, in one step; the units of its save are set
aside (17 R383). -/
def State.stopGang (s : State) (n : Nat) (g : Gang) : State :=
  let s := { s with
    barriers := (List.range 4).foldl (fun b ch => b.erase (n * 4 + ch)) s.barriers
    gangs := s.gangs.put n { g with stopping := true, saveAt := s.saveRoom g } }
  g.slots.foldl (fun s t =>
    match s.thread t with
    | some th =>
      let (s, th) := s.stopWait t th
      s.setThread t th
    | none => s) s

/-- The gang of a partition that is being stopped. -/
def State.stoppingGang (s : State) (p : Nat) : Option (Nat × Gang) := s.gangs.find? fun e => e.2.part == p && e.2.stopping

/-- The first thread of a gang that is outside any handler and keeps the gang from being saved. -/
def State.unsettledThread (s : State) (g : Gang) : Option (Nat × Thread) :=
  g.slots.findSome? fun t =>
    match s.thread t with
    | some th =>
      if !th.supervisor
          && (!th.deferred.isEmpty || !th.completeAt .p || th.trap.isSome || (s.stopWait t th).2.wait.rests) then some (t, th)
      else none
    | none => none

/-- Whether a thread of a gang runs a trap handler, which its stop waits for (17 R383). -/
def State.handled (s : State) (g : Gang) : Bool := g.slots.any fun t => ((s.thread t).map (·.supervisor)).getD false

/-- Complete what the cores of a gang have in hand: the matrix unit's instruction and a LATCH whose stores have performed. -/
def State.finishUnits (s : State) (cores : List Nat) : State :=
  cores.foldl (fun s c => ((s.unitDone c).latchDone c false).latchDone c true) s

/-- What the save holds beside the images: CLS spans, frames, and on each core whose MXOWN slot the gang holds its tiles,
latches and semaphores (17 R384). -/
def State.savedBytes (s : State) (g : Gang) (mx : List Nat) : List (Nat × List Byte) :=
  let len := (g.hdr.tpc + 1) * g.hdr.clsscr * 256
  let take (a n : Nat) : Nat × List Byte := (a, s.load a n)
  (g.spans.map fun x => take (windowPlace x.1 (x.2 * 256)) len)
    ++ (g.frames.map fun f => take (tilePlace f.1 (f.2 * 2048)) (g.hdr.tsframe * 2048))
    ++ mx.flatMap fun c =>
      (List.range 4).map (fun z => take (ztilePlace c (Fin.ofNat 4 z) 0) 4096)
        ++ [take (windowPlace c (latchOffset false)) 2048, take (windowPlace c (latchOffset true)) 2048,
          take (windowPlace c (semOffset 0)) 32]

/-- A contour register as a save holds it (17 R384; log entry 13: DESIGN CHOICE, unsafe). -/
def Contour.bytes (k : Contour) : List Byte :=
  leBytes 8 k.base ++ leBytes 8 k.limit ++ leBytes 8 k.low.toNat ++ leBytes 8 k.high.toNat
    ++ leBytes 8 (k.count.toNat * 2 ^ 32 + k.act * 2 ^ 5 + k.fmt)

/-- What a save holds of a core beside its memories: TFULL with which passes are held, the contour registers, and the held passes (17
R384; log entry 13: DESIGN CHOICE, unsafe). -/
def Core.savedItems (k : Core) : List Byte :=
  let held (south : Bool) : Nat := bit (k.passOut.any (·.1 == south))
  leBytes 8 (held true * 8 + held false * 4 + bit k.tfullB * 2 + bit k.tfullA)
    ++ ((List.range 16).flatMap fun n => (k.contour n).bytes) ++ k.passOut.flatMap (·.2.2)

/-- The lines of the save area that take the bytes of a save from an offset in it (17 R384). -/
def State.saveLines (s : State) (g : Gang) (off : Nat) (bs : List Byte) : List (Nat × List Byte) :=
  (List.range ((bs.length + 63) / 64)).map fun i =>
    let o := off + 64 * i
    ((s.part g.part).gsaveBase + ((g.saveAt[o / 65536]?).getD 0) * 65536 + o % 65536, (bs.drop (64 * i)).take 64)

/-- All lines of a gang's save: the images, then the other places one after another, and what the cores hold beside them (17 R384;
log entry 13: DESIGN CHOICE, unsafe). -/
def State.gangLines (s : State) (g : Gang) : List (Nat × List Byte) :=
  (g.saved.mapIdx fun i x => s.saveLines g (4096 + 1536 * i) (x.2.image x.2.imageCounts.1 x.2.imageCounts.2)).flatten
    ++ s.saveLines g (4096 + 1536 * g.saved.length)
      (g.savedPlaces.flatMap (·.2) ++ g.savedCores.flatMap fun e => e.2.savedItems)

/-- The poisoned granules among the places that a save holds (21 R441). -/
def State.badIn (s : State) (places : List (Nat × List Byte)) : List Nat :=
  s.poison.filter fun a => places.any fun x => decide (x.1 < a + 64) && decide (a < x.1 + x.2.length)

/-- A settled gang leaves its slots, and its save is to be written (17 R383, R384). -/
def State.saveGang (s : State) (n : Nat) (g : Gang) : State :=
  let s := s.finishUnits (slotCores g.slots)
  let mx := s.mxCores g
  let bytes := s.savedBytes g mx
  let cores := mx.map fun c => (c, s.core c)
  let bad := s.badIn bytes
  let (s, saved) := g.slots.foldl
    (fun (x : State × List (Nat × Thread)) t =>
      match x.1.thread t with
      | some th =>
        let (s, th) := x.1.stopWait t th
        (s.dropThread t, x.2 ++ [(t, { th with ahead := [], stuck := none })])
      | none => x) (s, [])
  let s := mx.foldl (fun s c => s.setCore c { s.core c with passOut := [] }) s
  let g := { g with saved := saved, savedPlaces := bytes, savedCores := cores, savedBad := bad, startedAt := s.now }
  { s with gangs := s.gangs.put n { g with writes := s.gangLines g } }

/-- The next line of a gang's save goes to the save area, and after the last of them what the gang holds is free. A line that is
refused stays as it was (17 R384; log entry 13: DESIGN CHOICE, unsafe). -/
def State.writeSave (s : State) (n : Nat) (g : Gang) : State :=
  let die := dieOfCore (coreOfKey ((g.slots.head?).getD 0))
  match g.writes with
  | [] => s.releaseGang n g
  | (va, bs) :: rest =>
    if s.hostWaits g.part die va then s
    else
      let s := match s.serviceStore g.part die va bs with
        | .ok s => s
        | .error r => s.s2refusal g.part va r
      { s with gangs := s.gangs.put n { g with writes := rest } }

/-- A step of a gang's stop: one of its threads settles or takes its deferred cause, the settled gang leaves its slots, or a line of
its save is written (17 R383, R384). -/
def State.stopStep (s : State) (n : Nat) (g : Gang) : State :=
  if !g.saved.isEmpty then s.writeSave n g
  else
  match s.unsettledThread g with
  | none => if s.handled g then s else s.saveGang n g
  | some (t, th) =>
    if th.trap.isSome then (s.progress t).heldStep t
    else if th.wait.answered then s
    else
      let (s, th) := s.stopWait t th
      if th.wait.rests then s.setThread t th
      else if !th.deferred.isEmpty then s.takeDeferred t th
      else (s.setThread t th).settleStep t

/-- The partition whose launches a source makes. -/
def Source.part : Source → Option Nat
  | .queue p _ | .pool p => some p
  | .gang _ => none

/-- GANG_PREEMPTION for the head of a source: the stop of a gang of its partition goes on, or that of its victim begins. -/
def execGangPreemption (src : Nat) (s : State) : Out :=
  match (sourceOf src).part.bind s.stoppingGang, s.waitingGang (sourceOf src) with
  | some (n, g), _ => .next (s.stopStep n g)
  | none, some l =>
    if !(s.part l.part).gpe || s.placeable l then .next s
    else
      match s.gangVictim l with
      | none => .next s
      | some (n, g) => .next (s.stopGang n g)
  | none, none => .next s

end Sys2Proof.Machine
end

