-- ==== Sys2Proof/Machine/Scalar.lean ====
section
/-!
DEFINITION. The scalar arithmetic and predicate instructions (spec/08 R195 to R204, R212) and the 16-bit forms that
repeat them (spec/07 R171).
-/

namespace Sys2Proof.Machine

/-! ## Results (08 R199, R201) -/

/-- The amount of a shift or rotate, X[B][5:0]. -/
def amount (b : Word) : Nat := b.toNat % 64

/-- The lesser, signed. -/
def minS (a b : Word) : Word := if a.toInt ≤ b.toInt then a else b

/-- The greater, signed. -/
def maxS (a b : Word) : Word := if b.toInt ≤ a.toInt then a else b

/-- The lesser, unsigned. -/
def minU (a b : Word) : Word := if a.toNat ≤ b.toNat then a else b

/-- The greater, unsigned. -/
def maxU (a b : Word) : Word := if b.toNat ≤ a.toNat then a else b

/-- The high 64 bits of the signed 128-bit product. -/
def mulHigh (a b : Word) : Word := BitVec.ofInt 64 (a.toInt * b.toInt / 2 ^ 64)

/-- The high 64 bits of the unsigned 128-bit product. -/
def mulHighU (a b : Word) : Word := BitVec.ofNat 64 (a.toNat * b.toNat / 2 ^ 64)

/-- The signed quotient, truncated towards zero; −2⁶³ ÷ −1 wraps to −2⁶³. -/
def divS (a b : Word) : Word := if b = 0 then BitVec.allOnes 64 else BitVec.ofInt 64 (Int.tdiv a.toInt b.toInt)

/-- The unsigned quotient. -/
def divU (a b : Word) : Word := if b = 0 then BitVec.allOnes 64 else BitVec.ofNat 64 (a.toNat / b.toNat)

/-- The signed remainder, with the sign of the dividend. -/
def remS (a b : Word) : Word := if b = 0 then a else BitVec.ofInt 64 (Int.tmod a.toInt b.toInt)

/-- The unsigned remainder. -/
def remU (a b : Word) : Word := if b = 0 then a else BitVec.ofNat 64 (a.toNat % b.toNat)

/-- The number of leading zero bits. -/
def leadingZeros (a : Word) : Nat := ((List.range 64).find? fun k => a.getLsbD (63 - k)).getD 64

/-- The number of trailing zero bits. -/
def trailingZeros (a : Word) : Nat := ((List.range 64).find? fun k => a.getLsbD k).getD 64

/-- The number of one bits. -/
def popCount (a : Word) : Nat := (List.range 64).countP fun k => a.getLsbD k

/-- The comparison of cmp (08 R200). -/
def ccHolds (cc : Cc) (a b : Word) : Bool :=
  match cc with
  | .eq => a == b
  | .ne => a != b
  | .lt => decide (a.toInt < b.toInt)
  | .ge => decide (b.toInt ≤ a.toInt)
  | .ltu => decide (a.toNat < b.toNat)
  | .geu => decide (b.toNat ≤ a.toNat)

/-- The comparison of a cmpi of MAJ 0x0C. -/
def ccOfS : CcS → Cc
  | .eq => .eq
  | .ne => .ne
  | .lt => .lt
  | .ge => .ge

/-- The comparison of a cmpi of MAJ 0x0D. -/
def ccOfU : CcU → Cc
  | .ltu => .ltu
  | .geu => .geu

/-- Field width of BFX and BFI: min(E[n][6:0], 64). -/
def fieldWidth (e : Word) : Nat := Nat.min (wbits e 6 0) 64

/-- BFX (08 R201). -/
def bitExtract (e a b : Word) : Word :=
  let w := fieldWidth e
  let f := a.toNat / 2 ^ amount b % 2 ^ w
  if wbits e 7 7 = 1 ∧ 0 < w ∧ 2 ^ w ≤ 2 * f then BitVec.ofNat 64 (2 ^ 64 - 2 ^ w + f) else BitVec.ofNat 64 f

/-- BFI (08 R201). -/
def bitInsert (e d a b : Word) : Word :=
  let m := BitVec.ofNat 64 ((2 ^ fieldWidth e - 1) * 2 ^ amount b)
  (d &&& ~~~m) ||| ((a <<< amount b) &&& m)

/-! ## Shapes -/

/-- xd ← f(xa, xb), TAINT from both. -/
def opRR (i : Instr) (d a b : Reg) (f : Word → Word → Word) (s : State) : Out :=
  issue i s (thenNext i fun th => th.setX d (f (th.getX a) (th.getX b)) (th.getTaint a || th.getTaint b))

/-- xd ← f(xa), TAINT from xa. -/
def opR (i : Instr) (d a : Reg) (f : Word → Word) (s : State) : Out :=
  issue i s (thenNext i fun th => th.setX d (f (th.getX a)) (th.getTaint a))

/-- xd ← a constant, TAINT 0. -/
def opConst (i : Instr) (d : Reg) (f : Thread → Word) (s : State) : Out :=
  issue i s (thenNext i fun th => th.setX d (f th) false)

/-- pd ← a Boolean of the thread. -/
def opPred (i : Instr) (pd : Reg8) (f : Thread → Bool) (s : State) : Out :=
  issue i s (thenNext i fun th => th.setP pd (f th))

/-! ## ADD to ADX (08 R199) -/

/-- ADD (08 R199). -/
def execAdd (g : Guard) (d a b : Reg) (s : State) : Out := opRR (.add g d a b) d a b (· + ·) s

/-- SUB (08 R199). -/
def execSub (g : Guard) (d a b : Reg) (s : State) : Out := opRR (.sub g d a b) d a b (· - ·) s

/-- AND (08 R199). -/
def execAnd (g : Guard) (d a b : Reg) (s : State) : Out := opRR (.and g d a b) d a b (· &&& ·) s

/-- OR (08 R199). -/
def execOr (g : Guard) (d a b : Reg) (s : State) : Out := opRR (.or g d a b) d a b (· ||| ·) s

/-- XOR (08 R199). -/
def execXor (g : Guard) (d a b : Reg) (s : State) : Out := opRR (.xor g d a b) d a b (· ^^^ ·) s

/-- ANDN (08 R199). -/
def execAndn (g : Guard) (d a b : Reg) (s : State) : Out := opRR (.andn g d a b) d a b (fun a b => a &&& ~~~b) s

/-- SLL (08 R199). -/
def execSll (g : Guard) (d a b : Reg) (s : State) : Out := opRR (.sll g d a b) d a b (fun a b => a <<< amount b) s

/-- SRL (08 R199). -/
def execSrl (g : Guard) (d a b : Reg) (s : State) : Out := opRR (.srl g d a b) d a b (fun a b => a >>> amount b) s

/-- SRA (08 R199). -/
def execSra (g : Guard) (d a b : Reg) (s : State) : Out :=
  opRR (.sra g d a b) d a b (fun a b => a.sshiftRight (amount b)) s

/-- ROL (08 R199). -/
def execRol (g : Guard) (d a b : Reg) (s : State) : Out :=
  opRR (.rol g d a b) d a b (fun a b => a.rotateLeft (amount b)) s

/-- MIN (08 R199). -/
def execMin (g : Guard) (d a b : Reg) (s : State) : Out := opRR (.min g d a b) d a b minS s

/-- MAX (08 R199). -/
def execMax (g : Guard) (d a b : Reg) (s : State) : Out := opRR (.max g d a b) d a b maxS s

/-- MINU (08 R199). -/
def execMinu (g : Guard) (d a b : Reg) (s : State) : Out := opRR (.minu g d a b) d a b minU s

/-- MAXU (08 R199). -/
def execMaxu (g : Guard) (d a b : Reg) (s : State) : Out := opRR (.maxu g d a b) d a b maxU s

/-- MUL (08 R199). -/
def execMul (g : Guard) (d a b : Reg) (s : State) : Out := opRR (.mul g d a b) d a b (· * ·) s

/-- MULH (08 R199). -/
def execMulh (g : Guard) (d a b : Reg) (s : State) : Out := opRR (.mulh g d a b) d a b mulHigh s

/-- MULHU (08 R199). -/
def execMulhu (g : Guard) (d a b : Reg) (s : State) : Out := opRR (.mulhu g d a b) d a b mulHighU s

/-- DIV (08 R199). -/
def execDiv (g : Guard) (d a b : Reg) (s : State) : Out := opRR (.div g d a b) d a b divS s

/-- DIVU (08 R199). -/
def execDivu (g : Guard) (d a b : Reg) (s : State) : Out := opRR (.divu g d a b) d a b divU s

/-- REM (08 R199). -/
def execRem (g : Guard) (d a b : Reg) (s : State) : Out := opRR (.rem g d a b) d a b remS s

/-- REMU (08 R199). -/
def execRemu (g : Guard) (d a b : Reg) (s : State) : Out := opRR (.remu g d a b) d a b remU s

/-- CLZ (08 R199). -/
def execClz (g : Guard) (d a : Reg) (s : State) : Out := opR (.clz g d a) d a (fun a => BitVec.ofNat 64 (leadingZeros a)) s

/-- CTZ (08 R199). -/
def execCtz (g : Guard) (d a : Reg) (s : State) : Out :=
  opR (.ctz g d a) d a (fun a => BitVec.ofNat 64 (trailingZeros a)) s

/-- POPC (08 R199). -/
def execPopc (g : Guard) (d a : Reg) (s : State) : Out := opR (.popc g d a) d a (fun a => BitVec.ofNat 64 (popCount a)) s

/-- ADX (08 R199). -/
def execAdx (g : Guard) (sh : Fin 5) (d a b : Reg) (s : State) : Out :=
  opRR (.adx g sh d a b) d a b (fun a b => a + (b <<< sh.val)) s

/-! ## CMP and CMPI (08 R200) -/

/-- CMP (08 R200). -/
def execCmp (g : Guard) (cc : Cc) (pd : Reg8) (a b : Reg) (s : State) : Out :=
  opPred (.cmp g cc pd a b) pd (fun th => ccHolds cc (th.getX a) (th.getX b)) s

/-- CMPI with a signed immediate (08 R200). -/
def execCmpiSigned (g : Guard) (cc : CcS) (pd : Reg8) (a : Reg) (imm : BitVec 11) (s : State) : Out :=
  opPred (.cmpiSigned g cc pd a imm) pd (fun th => ccHolds (ccOfS cc) (th.getX a) (sext imm)) s

/-- CMPI with an unsigned immediate (08 R200). -/
def execCmpiUnsigned (g : Guard) (cc : CcU) (pd : Reg8) (a : Reg) (imm : BitVec 11) (s : State) : Out :=
  opPred (.cmpiUnsigned g cc pd a imm) pd (fun th => ccHolds (ccOfU cc) (th.getX a) (zext imm)) s

/-! ## MADD, MSUB, BFX and BFI (08 R201) -/

/-- xd ← f(E[n], xa, xb), TAINT from the x registers. -/
def opE (i : Instr) (e : Reg8) (d a b : Reg) (f : Word → Word → Word → Word) (s : State) : Out :=
  issue i s (thenNext i fun th =>
    th.setX d (f (th.getE e) (th.getX a) (th.getX b)) (th.getTaint a || th.getTaint b))

/-- MADD (08 R201). -/
def execMadd (g : Guard) (e : Reg8) (d a b : Reg) (s : State) : Out :=
  opE (.madd g e d a b) e d a b (fun e a b => e + a * b) s

/-- MSUB (08 R201). -/
def execMsub (g : Guard) (e : Reg8) (d a b : Reg) (s : State) : Out :=
  opE (.msub g e d a b) e d a b (fun e a b => e - a * b) s

/-- BFX (08 R201). -/
def execBfx (g : Guard) (e : Reg8) (d a b : Reg) (s : State) : Out := opE (.bfx g e d a b) e d a b bitExtract s

/-- BFI, which reads xd too (08 R201). -/
def execBfi (g : Guard) (e : Reg8) (d a b : Reg) (s : State) : Out :=
  issue (.bfi g e d a b) s (thenNext (.bfi g e d a b) fun th =>
    th.setX d (bitInsert (th.getE e) (th.getX d) (th.getX a) (th.getX b))
      (th.getTaint d || th.getTaint a || th.getTaint b))

/-! ## Immediates (08 R202, R203) -/

/-- ADDI (08 R202). -/
def execAddi (g : Guard) (d a : Reg) (imm : BitVec 11) (s : State) : Out :=
  opR (.addi g d a imm) d a (· + sext imm) s

/-- ANDI (08 R202). -/
def execAndi (g : Guard) (d a : Reg) (imm : BitVec 11) (s : State) : Out :=
  opR (.andi g d a imm) d a (· &&& sext imm) s

/-- ORI (08 R202). -/
def execOri (g : Guard) (d a : Reg) (imm : BitVec 11) (s : State) : Out :=
  opR (.ori g d a imm) d a (· ||| zext imm) s

/-- XORI (08 R202). -/
def execXori (g : Guard) (d a : Reg) (imm : BitVec 11) (s : State) : Out :=
  opR (.xori g d a imm) d a (· ^^^ zext imm) s

/-- SLLI (08 R202). -/
def execSlli (g : Guard) (d a : Reg) (sh : BitVec 6) (s : State) : Out :=
  opR (.slli g d a sh) d a (· <<< sh.toNat) s

/-- SRLI (08 R202). -/
def execSrli (g : Guard) (d a : Reg) (sh : BitVec 6) (s : State) : Out :=
  opR (.srli g d a sh) d a (· >>> sh.toNat) s

/-- SRAI (08 R202). -/
def execSrai (g : Guard) (d a : Reg) (sh : BitVec 6) (s : State) : Out :=
  opR (.srai g d a sh) d a (fun a => a.sshiftRight sh.toNat) s

/-- LI (08 R203). -/
def execLi (g : Guard) (d : Reg) (imm : BitVec 16) (s : State) : Out := opConst (.li g d imm) d (fun _ => sext imm) s

/-- LSH (08 R203). -/
def execLsh (g : Guard) (d : Reg) (imm : BitVec 16) (s : State) : Out :=
  opR (.lsh g d imm) d d (fun x => (x <<< 16) ||| zext imm) s

/-! ## MOVE, MOVX and SEL (08 R204) -/

/-- MOVE (08 R204). -/
def execMove (g : Guard) (ed : Reg8) (a : Reg) (s : State) : Out :=
  issue (.move g ed a) s (thenNext (.move g ed a) fun th => th.setE ed (th.getX a))

/-- MOVX (08 R204). -/
def execMovx (g : Guard) (d : Reg) (ea : Reg8) (s : State) : Out := opConst (.movx g d ea) d (·.getE ea) s

/-- SEL (08 R204). -/
def execSel (g : Guard) (p : Reg8) (d a b : Reg) (s : State) : Out :=
  issue (.sel g p d a b) s (thenNext (.sel g p d a b) fun th =>
    th.setX d (if th.getP p then th.getX a else th.getX b) (th.getTaint a || th.getTaint b))

/-! ## Predicates (08 R212) -/

/-- PAND (08 R212). -/
def execPand (g : Guard) (pd pa pb : Reg8) (s : State) : Out :=
  opPred (.pand g pd pa pb) pd (fun th => th.getP pa && th.getP pb) s

/-- POR (08 R212). -/
def execPor (g : Guard) (pd pa pb : Reg8) (s : State) : Out :=
  opPred (.por g pd pa pb) pd (fun th => th.getP pa || th.getP pb) s

/-- PXOR (08 R212). -/
def execPxor (g : Guard) (pd pa pb : Reg8) (s : State) : Out :=
  opPred (.pxor g pd pa pb) pd (fun th => th.getP pa != th.getP pb) s

/-- PANDN (08 R212). -/
def execPandn (g : Guard) (pd pa pb : Reg8) (s : State) : Out :=
  opPred (.pandn g pd pa pb) pd (fun th => th.getP pa && !th.getP pb) s

/-- PORN (08 R212). -/
def execPorn (g : Guard) (pd pa pb : Reg8) (s : State) : Out :=
  opPred (.porn g pd pa pb) pd (fun th => th.getP pa || !th.getP pb) s

/-- The eight predicates as a byte, bit 0 reading 1 (08 R212). -/
def Thread.predBits (th : Thread) : BitVec 8 := th.p ||| 1

/-- PGET (08 R212). -/
def execPget (g : Guard) (d : Reg) (s : State) : Out := opConst (.pget g d) d (fun th => th.predBits.zeroExtend 64) s

/-- PSET (08 R212). -/
def execPset (g : Guard) (a : Reg) (s : State) : Out :=
  issue (.pset g a) s (thenNext (.pset g a) fun th => { th with p := (th.getX a).truncate 8 ||| 1 })

/-! ## 16-bit forms (07 R171) -/

/-- C.MOV is or d, x0, a (07 R171). -/
def execCMov (d a : Reg) (s : State) : Out := opRR (.cMov d a) d 0 a (· ||| ·) s

/-- C.ADD (07 R171). -/
def execCAdd (d a : Reg) (s : State) : Out := opRR (.cAdd d a) d d a (· + ·) s

/-- C.SUB (07 R171). -/
def execCSub (d a : Reg) (s : State) : Out := opRR (.cSub d a) d d a (· - ·) s

/-- C.AND (07 R171). -/
def execCAnd (d a : Reg) (s : State) : Out := opRR (.cAnd d a) d d a (· &&& ·) s

/-- C.OR (07 R171). -/
def execCOr (d a : Reg) (s : State) : Out := opRR (.cOr d a) d d a (· ||| ·) s

/-- C.XOR (07 R171). -/
def execCXor (d a : Reg) (s : State) : Out := opRR (.cXor d a) d d a (· ^^^ ·) s

/-- C.ADDI (07 R171). -/
def execCAddi (d : Reg) (imm : BitVec 6) (s : State) : Out := opR (.cAddi d imm) d d (· + sext imm) s

/-- C.LI (07 R171). -/
def execCLi (d : Reg) (imm : BitVec 6) (s : State) : Out := opConst (.cLi d imm) d (fun _ => sext imm) s

/-- C.SLLI (07 R171). -/
def execCSlli (d : Reg) (sh : BitVec 6) (s : State) : Out := opR (.cSlli d sh) d d (· <<< sh.toNat) s

/-- C.SRLI (07 R171). -/
def execCSrli (d : Reg) (sh : BitVec 6) (s : State) : Out := opR (.cSrli d sh) d d (· >>> sh.toNat) s

end Sys2Proof.Machine
end

