-- ==== Sys2Proof/Machine/Messages.lean ====
section
/-!
DEFINITION. SEND, SENDC, ENG, RLD and RST (spec/12 R299 to R306), the injection queue's drain, the receive unit with its
code-carrying messages, and the start of handlers (spec/02 R55 to R60, spec/18 R394, R396, spec/19 R420).
-/

namespace Sys2Proof.Machine

/-! ## Messages (02 R55, 12 R299, R300) -/

/-- Whether a partition holds a granule of a die. -/
def Part.onDie (k : Part) (d : Nat) : Bool := k.granules.any fun g => g / 4 == d

/-- Whether a SEND or SENDC of a partition can deliver to an endpoint (18 R394). -/
def State.deliverable (s : State) (p dest : Nat) : Bool :=
  let loc := endLocal dest
  if endNode dest ≠ s.pkg.node then decide (loc < 6150)
  else if loc < 6144 then s.ownsCluster p (clusterOfCore loc)
  else decide (loc < 6150) && (s.part p).onDie (loc - 6144)

/-- Word 0 of a message (02 R55). -/
def messageHeader (src kind n prio route pgen part : Nat) : Word :=
  BitVec.ofNat 64 (src * 2 ^ 32 + kind * 2 ^ 28 + n * 2 ^ 24 + prio * 2 ^ 22 + route * 2 ^ 14 + pgen * 2 ^ 10 + part * 2 ^ 5)

/-- A list of words padded with zeros. -/
def padWords (ws : List Word) (n : Nat) : List Word := (ws ++ List.replicate n 0).take n

/-- The record or records of an active message (02 R55). -/
def activeWords (hdr entry reply : Word) (args : List Word) : List Word :=
  [hdr, entry, reply] ++ padWords args (if args.length ≤ 5 then 5 else 13)

/-- The record of a code-carrying message (02 R55). -/
def codeWords (hdr c0 c1 reply : Word) (args : List Word) : List Word := [hdr, c0, c1, reply] ++ padWords args 4

/-- Word `i` of a record. -/
def Record.word (r : Record) (i : Nat) : Word := (r.words[i]?).getD 0

/-- KIND of a message: whether it carries code. -/
def Record.isCode (r : Record) : Bool := wbits (r.word 0) 31 28 == 1

/-- PRIO of a message. -/
def Record.prio (r : Record) : Nat := wbits (r.word 0) 23 22

/-- SRC of a message. -/
def Record.src (r : Record) : Nat := wbits (r.word 0) 63 32

/-- REPLY of a message (02 R55). -/
def Record.reply (r : Record) : Word := r.word (if r.isCode then 3 else 2)

/-- Argument `i` of a message, from 1. -/
def Record.arg (r : Record) (i : Nat) : Word := if r.isCode then r.word (3 + i) else r.word (2 + i)

/-- The message that a message word describes, from a core of a partition. -/
def messageOf (s : State) (c p : Nat) (m : Word) (code : Bool) (w1 w2 f : Word) (args : List Word) : Record :=
  let dest := wbits m 31 0
  let hdr := messageHeader (endpoint s.pkg.node c) (bit code) (wbits m 35 32) (wbits m 37 36) (wbits m 45 38)
    (s.part p).pgen p
  let words := if code then codeWords hdr w1 w2 f args else activeWords hdr w1 f args
  ⟨words, if args.length ≤ 5 || code then 1 else 2, dest, wbits m 46 46 == 1, none,
    coverScope s.pkg.node c dest == .c, 0, 0, none⟩

/-- The arguments x1 to x(n) of a thread. -/
def Thread.args (th : Thread) (n : Nat) : List Word := (th.x.toList.drop 1).take n

/-- The step of an instruction that has allocated a future: it goes on where it finds room, and waits for it otherwise (12 R300,
R302, R305). -/
def roomRes (s : State) (th : Thread) (f : Word) (room : Bool) (k : State → Thread → Word → Res) : Res :=
  if room then k s { th with wait := .none } f
  else
    let s' := s.setThread s.cur { th with wait := .room f }
    .done (if th.wait = .room f then s'.markBusy s.cur else s')

/-- The future of an instruction that allocated it and waits for room. -/
def Wait.allocated : Wait → Option Word
  | .room f => some f
  | _ => .none

/-- The rest of a SEND or SENDC: the reply future, room in the injection queue, and the record (12 R300). -/
def sendRes (s : State) (th : Thread) (m : Word) (d : Reg) (code : Bool) (w1 w2 : Word) : Res :=
  let c := coreOfKey s.cur
  let n := wbits m 35 32
  let size := if n ≤ 5 || code then 1 else 2
  let go (s : State) (th : Thread) (f : Word) : Res :=
    let s := s.inject c th.part (messageOf s c th.part m code w1 w2 f (th.args n))
    .done (s.setThread s.cur ((th.setX d f false).next 4))
  let room := decide ((s.core c).injUsed + size ≤ 16)
  match th.wait.allocated with
  | some f => roomRes s th f room go
  | none =>
    if wbits m 47 47 = 1 then allocRes s th 0 false false .remote fun s th f => roomRes s th f room go
    else if room then go s { th with wait := .none } 0
    else .settle

/-- SEND (12 R300). -/
def execSend (g : Guard) (d a b : Reg) (s : State) : Out :=
  issue (.send g d a b) s fun s th =>
    let m := th.getX a
    let ent := th.getX b
    if th.wait.allocated.isSome then sendRes s th m d false ent 0
    else if 8 < wbits m 35 32 ∨ !s.deliverable th.part (wbits m 31 0) then .trap .queue m 0
    else if badEntry ent then .trap .align ent 0
    else sendRes s th m d false ent 0

/-! ## Code words (12 R301) -/

/-- The instructions a code-carrying message may hold (12 R301). -/
def codeShape (i : Instr) : Bool :=
  match i with
  | .add .. | .sub .. | .and .. | .or .. | .xor .. | .andn .. | .sll .. | .srl .. | .sra .. | .rol .. | .min .. | .max ..
  | .minu .. | .maxu .. | .mul .. | .mulh .. | .mulhu .. | .div .. | .divu .. | .rem .. | .remu .. | .clz .. | .ctz ..
  | .popc .. | .adx .. | .addi .. | .andi .. | .ori .. | .xori .. | .slli .. | .srli .. | .srai .. | .li .. | .lsh ..
  | .ld .. | .st .. | .aadd .. | .amin .. | .amax .. | .aand .. | .aor .. | .axor .. | .aswap .. | .acas ..
  | .resolve .. | .fdec .. | .send .. => true
  | _ => false

/-- The instruction of a code word, when R301 admits it: 32 bits, unguarded, every register field from x0 to x7. -/
def codeInstr (w : Nat) : Option Instr :=
  if w % 2 = 1 ∧ bitsOf w 10 7 = 0 then
    match decode (leBytes 4 w) with
    | .ok (i, _) =>
      let u := usesOf i 0 0 (Thread.fresh 0 .handler 0 0 .all)
      if codeShape i && (u.xr ++ u.xw).all fun r => decide (r < 8) then some i else none
    | .error _ => none
  else none

/-- The four code words of E4 and E5. -/
def codeList (e4 e5 : Word) : List Nat := [wbits e4 31 0, wbits e4 63 32, wbits e5 31 0, wbits e5 63 32]

/-- The code words that run: those before the first zero. -/
def liveCode (e4 e5 : Word) : List Nat := (codeList e4 e5).takeWhile (· != 0)

/-- SENDC (12 R300, R301). -/
def execSendc (g : Guard) (d a : Reg) (s : State) : Out :=
  issue (.sendc g d a) s fun s th =>
    let m := th.getX a
    if th.wait.allocated.isSome then sendRes s th m d true (th.getE 4) (th.getE 5)
    else if 4 < wbits m 35 32 ∨ !s.deliverable th.part (wbits m 31 0)
        ∨ !(liveCode (th.getE 4) (th.getE 5)).all (fun w => (codeInstr w).isSome) then .trap .queue m 0
    else sendRes s th m d true (th.getE 4) (th.getE 5)

/-! ## RLD and RST (12 R302, R303) -/

/-- Whether an outstanding access of a thread touches a range. -/
def Thread.touches (th : Thread) (va size : Nat) : Bool :=
  th.acc.any fun a => decide (a.va < va + size) && decide (va < a.va + a.size)

/-- The access descriptor of an RLD (20 R423): it zero-extends. -/
def rldDesc (bytes : Nat) (d : Reg) : Nat := descriptor 0 (Nat.log2 bytes) 0 0 0 1 0 d.val 0 0 0

/-- RLD (12 R302): the thread waits for the value read at the home (log entry 15: DEDUCED, unsafe). -/
def execRld (g : Guard) (w : Width) (d a : Reg) (s : State) : Out :=
  issue (.rld g w d a) s fun s th =>
    let ea := (th.getX a).toNat
    let n := widthBytes w
    remoteDone th ea
      (fun lo _ => .done (s.setThread s.cur (({ th with wait := .none }.setX d
        (BitVec.ofNat 64 (lo.toNat % 2 ^ (8 * n))) (th.getTaint a)).next 4)))
      (withAccess (.rld g w d a) s th ea n n (rldDesc n d) .load fun s c =>
        if c.place = .remote then remoteRes s th ea 0x03 n 0 []
        else if th.touches c.va n then .settle
        else homeRes s th (newAccess th .load ea n (rldDesc n d) c (.x d n false (th.getTaint a))))

/-- The rest of an RLD.f whose future is allocated: its access, or its request to another node, for which it waits for a tag and a
record (12 R302; 15 R330, R337). -/
def rldfRes (s : State) (th : Thread) (f : Word) (ea n : Nat) (d a : Reg) (ck : Checked) : Res :=
  let c := coreOfKey s.cur
  let go (s : State) (th : Thread) (f : Word) : Res :=
    let acc := { newAccess th .load ea n (rldDesc n d) ck (.future f) with home := true }
    .done (s.setThread s.cur (((th.setX d f (th.getTaint a)).next 4).addAccess acc))
  if ck.place = .remote then
    match s.request c th.part (bitsOf ea 62 46) 0x03 n ea 0 [] none f with
    | some (s, _) => roomRes s th f true go
    | none => roomRes s th f false go
  else go s th f

/-- RLD.f (12 R302): the value goes to a future. -/
def execRldF (g : Guard) (w : Width) (d a : Reg) (s : State) : Out :=
  issue (.rldF g w d a) s fun s th =>
    let ea := (th.getX a).toNat
    let n := widthBytes w
    match th.wait.allocated with
    | some f => rldfRes s th f ea n d a ⟨.remote, ea, false, false, false⟩
    | none =>
      withAccess (.rldF g w d a) s th ea n n (rldDesc n d) .load fun s ck =>
        allocRes s th 0 false false .remote fun s th f => rldfRes s th f ea n d a ck

/-- The asynchronous load of a future has its value, or none that comes: it is behind its thread (05 R125). -/
def State.boundRemote (s : State) (f : Word) : State :=
  { s with threads := s.threads.map fun e =>
    (e.1, { e.2 with acc := e.2.acc.filter fun a => !(a.place == .remote && a.dst == .future f) }) }

/-- RST (12 R303): the thread waits for the acknowledgement (log entry 15: DEDUCED, unsafe). -/
def execRst (g : Guard) (w : Width) (a b : Reg) (s : State) : Out :=
  issue (.rst g w a b) s fun s th =>
    let ea := (th.getX a).toNat
    let n := widthBytes w
    let desc := descriptor 1 (Nat.log2 n) 0 0 0 0 0 b.val 0 0 0
    remoteDone th ea (fun _ _ => .done (s.setThread s.cur ({ th with wait := .none }.next 4)))
      (withAccess (.rst g w a b) s th ea n n desc .store fun s c =>
        if th.touches c.va n then .settle
        else
          withContour s c.va (lowBytes (th.getX b) n) fun s data =>
            if c.place = .remote then remoteRes s th ea 0x05 n 0 data
            else homeRes s th { newAccess th .store ea n desc c .none with data := data, home := true, srcX := [b.val] })

/-- The load of an RLD binds at its place: the thread has the value, or its core has consumed poison (21 R441). -/
def State.homeLoad (s : State) (o : HomeOp) (l : LineData) (off : Nat) : State :=
  if l.bad then s.consumeLine o.core l
  else s.wake o.waiter (.value (BitVec.ofNat 64 (leNat ((l.data.drop off).take o.access.size))) 0)

/-- The store of an RST has performed: where its line is cacheable, the acknowledgement is a step of its own (05 R122). -/
def State.homeStored (s : State) (k : Nat) (o : HomeOp) : State :=
  { s with homeOps := s.homeOps.set k { o with access := { o.access with state := .performed [] } } }

/-- The access of an RLD or RST is refused: it performs nothing, and its cause is deferred (17 R366). -/
def State.homeRefused (s : State) (o : HomeOp) (r : Refused) : State :=
  let s := s.s2refusal o.part o.access.va r
  (s.deferFor o.waiter ⟨r.cause, BitVec.ofNat 64 o.access.info, BitVec.ofNat 64 (o.access.desc + r.bits), o.access⟩).wake
    o.waiter .none

/-- The steps of an RLD or RST whose home is in the package, by its place among those under way: a load binds, a store
performs, and the acknowledgement of a store to a cacheable line completes it (05 R120, R122; 12 R302, R303; log entry 15:
DEDUCED, unsafe). -/
def State.homeTurn (s : State) (k : Nat) : State :=
  match s.homeOps[k]? with
  | none => s
  | some o =>
    let a := o.access
    let die := dieOfCore o.core
    let gone (s : State) : State := { s with homeOps := s.homeOps.eraseIdx k }
    match a.state, a.place with
    | .performed _, _ => (gone (s.patchL1 o.core o.part a.va a.data)).wake o.waiter (.value 0 0)
    | .issued, .single pa =>
      if a.op = .load then (gone s).homeLoad o ⟨s.placeBytes pa a.size, s.isPoisoned pa, lineOf pa, placeSrc pa⟩ 0
      else (gone (s.storePlace pa a.data)).wake o.waiter (.value 0 0)
    | .issued, _ =>
      if s.hostWaits o.part die a.va then s
      else
        match checkedPage s o.part die ⟨a.place, a.va, a.atom, false, a.isSealed⟩ a.writes with
        | .error r => (gone s).homeRefused o r
        | .ok g =>
          let line := lineOf a.va
          let pa := g.place line
          if a.place = .atom then
            if a.op = .load then (gone s).homeLoad o ⟨s.load pa 64, s.isPoisoned pa, pa, 5⟩ (a.va % 64)
            else (gone ((s.storeAt o.part (g.place a.va) a.data).wakeWatch (g.place a.va))).wake o.waiter (.value 0 0)
          else if a.op = .load then
            ((gone s).fetchHome o.part line pa g.w).homeLoad o (s.homeData o.part line pa) (a.va % 64)
          else
            match s.performHome o.part die a.va a.size true (fun _ => some a.data) with
            | .error r => (gone s).homeRefused o r
            | .ok (s, _) => s.homeStored k o

/-! ## ENG (12 R304 to R306) -/

/-- The engines of 12 R305. -/
inductive Engine where
  | copier | gather | collective | atomicUnit | proof
  deriving DecidableEq, Repr

/-- The engine of a local endpoint (12 R305). -/
def engineOf (loc : Nat) : Option Engine :=
  if 8192 ≤ loc ∧ loc < 8576 then some .copier
  else if 8704 ≤ loc ∧ loc < 9088 then some .gather
  else if 9216 ≤ loc ∧ loc < 9222 then some .collective
  else if 9232 ≤ loc ∧ loc < 9244 then some .atomicUnit
  else if loc = 9248 then some .proof
  else none

/-- The operand words of a command (12 R306); none for an OP that is not assigned. -/
def engineWords (e : Engine) (op : Nat) : Option Nat :=
  match e, op with
  | .copier, 1 | .copier, 2 | .atomicUnit, 1 => some 3
  | .gather, 1 => some 5
  | .collective, 1 | .collective, 2 => some 7
  | .proof, 1 => some 2
  | _, _ => none

/-- Whether an engine is in a partition (12 R305). -/
def State.engineIn (s : State) (p : Nat) (e : Engine) (loc : Nat) : Bool :=
  match e with
  | .copier => s.ownsCluster p (loc - 8192)
  | .gather => s.ownsCluster p (loc - 8704)
  | .collective => (s.part p).onDie (loc - 9216)
  | .atomicUnit => (s.part p).granules.any fun g => g / 2 == loc - 9232
  | .proof => true

/-- Bytes of an element of an ALLREDUCE format (06 R141). -/
def reduceBytes (fmt : Nat) : Nat := fmtWidth fmt / 8

/-- What ENG checks of an operand range (12 R305, R306). -/
structure EngRange where
  addr : Nat
  len : Nat
  write : Bool
  /-- An ATOM page is forbidden (false) or required (true). -/
  atomRule : Option Bool
  deriving DecidableEq, Repr

/-- The operand ranges that ENG checks (12 R306). -/
def engRanges (e : Engine) (op : Nat) (w : Nat → Nat) : List EngRange :=
  match e, op with
  | .copier, 1 => [⟨w 0, w 2, false, some false⟩, ⟨w 1, w 2, true, some false⟩]
  | .copier, _ => [⟨w 0, w 2, false, none⟩]
  | .gather, _ => [⟨w 0, 4 * w 2, false, some false⟩, ⟨w 4, w 2 * w 3, true, some false⟩]
  | .atomicUnit, _ => [⟨w 0, 8 * w 2, false, none⟩, ⟨w 1, 8 * w 2, true, some true⟩]
  | .collective, 1 => [⟨w 2, w 4, false, none⟩]
  | .collective, _ =>
    let n := w 4 * reduceBytes (w 5 % 32)
    [⟨w 2, n, false, none⟩, ⟨w 3, n, true, none⟩]
  | .proof, _ => []

/-- The access descriptor of an ENG operand range (20 R423). -/
def engDesc : Nat := descriptor 10 0 0 0 0 0 5 0 0 0 0

/-- The first address of a range of the tile-store windows that its partition does not hold
(log entry 67: DEDUCED, unsafe). -/
def State.tileRangeFault (s : State) (p a len : Nat) : Option Failed :=
  let first := (a - tileBase) / 0x00200000
  let last := (a + len - 1 - tileBase) / 0x00200000
  match (List.range (last - first + 1)).find? fun i => !s.ownsCluster p (first + i) with
  | none => none
  | some i =>
    let at_ := Nat.max a (tileBase + (first + i) * 0x00200000)
    some (if first + i < 384 then protAt at_ engDesc 2 1 else protAt at_ engDesc 0 1)

/-- A check that fails without a change of the state. -/
def CheckFail.plain (s : State) (f : Failed) : CheckFail := .trap s f

/-- The check of one operand range at issue, with the ATOM right of its region (12 R305): one region covers it whole and has the
right. -/
def rangeCheck (s : State) (c : Nat) (th : Thread) (r : EngRange) : Except CheckFail (State × Bool) :=
  if r.len = 0 then .ok (s, false)
  else
    match nameOf r.addr with
    | .nothing => .error (.plain s (protAt r.addr engDesc 0 1))
    | .fabric _ _ | .window _ => .error (.plain s (protAt r.addr engDesc 0 3))
    | .tile _ _ =>
      match s.tileRangeFault th.part r.addr r.len with
      | some f => .error (.plain s f)
      | none => .ok (s, false)
    | .translated =>
      match plbLookup s c th.part th.dom r.addr with
      | .error e => .error (e.check s c r.addr engDesc)
      | .ok (none, s) => .error (.plain s (protAt r.addr engDesc 1 1))
      | .ok (some e, s) =>
        if e.base + 2 ^ e.log2 < r.addr + r.len then .error (.plain s (protAt (e.base + 2 ^ e.log2) engDesc 1 1))
        else if !(if r.write then e.rights.w else e.rights.rd) then .error (.plain s (protAt r.addr engDesc 1 2))
        else .ok (s, e.rights.atom)

/-- The checks of all operand ranges of a command, with the ATOM right of each. -/
def rangeChecks (c : Nat) (th : Thread) : State → List EngRange → Except CheckFail (State × List Bool)
  | s, [] => .ok (s, [])
  | s, r :: rs =>
    match rangeCheck s c th r with
    | .error f => .error f
    | .ok (s, a) => (rangeChecks c th s rs).map fun x => (x.1, a :: x.2)

/-- The attribute check of the operand ranges, which follows the protection of all of them (18 R386 rows 8 and 9): the first address
of the range that fails. -/
def attributeFault (rs : List EngRange) (atoms : List Bool) : Option Nat :=
  ((rs.zip atoms).find? fun x => x.1.len != 0 && (x.1.atomRule.map (· != x.2)).getD false).map (·.1.addr)

/-- Whether a COPYR names a ring its issuer may fill (12 R307). -/
def copyrAllowed (th : Thread) (loc ring : Nat) : Bool :=
  th.supervisor || (th.hdr.rings.getLsbD ring && loc == 8192 + th.homeCluster)

/-- A command as it enters the injection queue (12 R305). -/
def newCommand (s : State) (th : Thread) (h f : Word) (ws : List Word) (atoms : List Bool) : Command where
  engine := endLocal (wbits h 31 0)
  op := wbits h 39 32
  words := ws
  dom := th.dom
  part := th.part
  future := f
  contours := (s.core (coreOfKey s.cur)).contours
  core := coreOfKey s.cur
  cluster := clusterOfCore (coreOfKey s.cur)
  arrived := false
  started := false
  startedAt := 0
  pos := 0
  done := []
  finished := none
  cancelled := false
  members := []
  rank := 0
  blocks := []
  got := []
  sq := []
  lines := []
  atoms := atoms
  stop := none
  closing := false
  fcan := none

/-- ENG once its checks have passed (12 R305): the future first, then room in the injection queue. -/
def engRes (s : State) (th : Thread) (h : Word) (d : Reg) (atoms : List Bool) : Res :=
  let c := coreOfKey s.cur
  let go (s : State) (th : Thread) (f : Word) : Res :=
    let ws := th.e.toList.take (wbits h 43 40)
    let n := s.nextCommand
    let r : Record := ⟨h :: ws, 1, wbits h 31 0, false, some n, false, 0, 0, none⟩
    let s := { s with commands := s.commands.put n (newCommand s th h f ws atoms), nextCommand := n + 1 }
    .done ((s.inject c th.part r).setThread s.cur ((th.setX d f false).next 4))
  let room := decide ((s.core c).injUsed + 1 ≤ 16)
  match th.wait.allocated with
  | some f => roomRes s th f room go
  | none => allocRes s th 0 false false .command fun s th f => roomRes s th f room go

/-- ENG (12 R304 to R306): the level of a CUT is checked before the fields (18 R386). -/
def execEng (g : Guard) (d a : Reg) (s : State) : Out :=
  issue (.eng g d a) s fun s th =>
    let h := th.getX a
    let dest := wbits h 31 0
    let loc := endLocal dest
    let op := wbits h 39 32
    let w (i : Nat) : Nat := ((th.e.toList[i]?).getD 0).toNat
    match engineOf loc with
    | none => .trap .queue h 0
    | some e =>
      if e = .proof ∧ op = 1 ∧ !th.supervisor then .trap .priv (BitVec.ofNat 64 (Instr.eng g d a).word) 0
      else if endNode dest ≠ s.pkg.node ∨ engineWords e op ≠ some (wbits h 43 40) ∨ !s.engineIn th.part e loc then
        .trap .queue h 0
      else if e = .copier ∧ op = 2 ∧ !copyrAllowed th loc (w 1 % 16) then .trap .queue h 0
      else
        match rangeChecks (coreOfKey s.cur) th s (engRanges e op w) with
        | .error f => f.res
        | .ok (s, atoms) =>
          match attributeFault (engRanges e op w) atoms with
          | some at_ => (CheckFail.trap s ⟨.atomattr, BitVec.ofNat 64 at_, 0⟩).res
          | none => engRes s th h d atoms

/-! ## Answers to messages (19 R420, 22 R461) -/

/-- A message of this node that is not delivered: its REPLY takes its end, and the sender's partition counts (22 R461). -/
def State.messageAnswer (s : State) (p : Nat) (reply : Word) (dest code : Nat) : State :=
  if reply = 0 then s.count p ctrMsgdrop
  else
    (s.post reply (if code = 0x0B then .poison reply 0x0516
      else .resolve reply (BitVec.ofNat 64 dest) (BitVec.ofNat 16 (0x1200 + code)))).count p ctrErrreply

/-- A message to a partition that finds no receiver is answered to its sender. -/
def State.answerRecord (s : State) (p : Nat) (r : Record) (code : Nat) : State :=
  if endNode r.src = s.pkg.node then s.messageAnswer p r.reply r.dest code
  else s.errorReply p r.dest r.src (if r.isCode then 2 else 1) r.tag (bit r.class1) code 0

/-! ## The injection queue (02 R54, R57; 12 R300, R305) -/

/-- A record enters a receive queue; none while the queue is full (02 R54). -/
def State.receive (s : State) (c : Nat) (r : Record) : Option State :=
  let k := s.core c
  if k.rxFree < r.size then none
  else
    let s := s.setCore c { k with rx := k.rx ++ [r] }
    some (if !r.isCode && k.h3Now then s.wakeCore c else s)

/-- The core whose receive queue holds a die-place message that no field serves now (19 R420): that of the lowest field
whose reserved slot will serve again. -/
def State.dieWait (s : State) (p die : Nat) : Option Nat :=
  let fields := ((List.range 4).map (die * 4 + ·)).filter fun f => (s.part p).granules.contains f
  (fields.findSome? fun f =>
    match s.reservedHandler f with
    | some c =>
      if !(s.core c).killed then some c
      else (List.range 256).findSome? fun i =>
        let c := f * 256 + i
        if s.pkg.present (clusterOfCore c) && !(s.core c).killed then some c else none
    | none => none)

/-- Deliver a message to its endpoint on this node: none while back-pressure holds it. -/
def State.deliverMessage (s : State) (p : Nat) (r : Record) : Option State :=
  let loc := endLocal r.dest
  if loc < 6144 then
    if !s.pkg.present (clusterOfCore loc) then some (s.answerRecord p r 0x0A)
    else if (s.core loc).killed || (s.core loc).sealedRx then some (s.answerRecord p r 0x0B)
    else s.receive loc r
  else
    match s.diePlace p (loc - 6144) with
    | some c => s.receive c r
    | none =>
      match s.dieWait p (loc - 6144) with
      | some c => s.receive c r
      | none => some (s.answerRecord p r 0x0C)

/-- A message to another node leaves as a packet (15 R330): with a REPLY it takes a tag, by which an error reply finds it
(log entry 24: DESIGN CHOICE, unsafe). -/
def State.sendPacket (s : State) (c p : Nat) (r : Record) : Option State :=
  let ptype := if r.isCode then 2 else 1
  let payload := (padWords r.words (8 * r.size)).flatMap fun w => leBytes 8 w.toNat
  let live (o : Outstanding) : Bool :=
    !(o.core == c && (o.ptype == 1 || o.ptype == 2)) || (match (s.cluster (handleCluster o.future)).futRef o.future with
      | .live e => e.state == .pending
      | _ => false)
  let s := { s with outstanding := s.outstanding.filter live }
  let out (s : State) (tag : Nat) : State :=
    s.depart { s.packet p ptype (endpoint s.pkg.node c) r.dest (bit r.class1) r.prio (wbits (r.word 0) 21 14) (64 * r.size)
      tag 0 payload with step := r.step }
  if r.reply = 0 then some (out s 0)
  else
    match (List.range 31).find? fun n => !s.outstanding.any fun o => o.core == c && o.tag == n + 1 with
    | none => none
    | some n => some { out s (n + 1) with outstanding := s.outstanding ++ [⟨c, n + 1, p, ptype, none, r.reply, false, false⟩] }

/-- A cancelled command is gone, its stores performed: a node whose FCAN cancelled it has its answer (12 R292). -/
def State.dropCommand (s : State) (n : Nat) (cmd : Command) : State :=
  let s := { s with commands := s.commands.erase n }
  match cmd.fcan with
  | some (ep, tag) => s.answerNode cmd.future ep tag (answerWord 2 false false 0) 0 1
  | none => s

/-- An engine command reaches the inbox of its engine: none while 32 wait there (12 R305). -/
def State.enqueueCommand (s : State) (n : Nat) : Option State :=
  match s.commands.find n with
  | none => some s
  | some cmd =>
    if cmd.cancelled then some (s.dropCommand n cmd)
    else if 32 ≤ (s.commands.filter fun e => e.2.engine == cmd.engine && e.2.arrived && !e.2.started).length then none
    else some { s with commands := s.commands.put n { cmd with arrived := true, startedAt := s.now } }

/-- INJECTION_QUEUE_DRAIN: the oldest record of a core's injection queue (12 R300). -/
def State.drain (s : State) (c : Nat) : State :=
  match (s.core c).inj with
  | [] => s
  | r :: rest =>
    let p := s.clusterPart (clusterOfCore c)
    let out := match r.command, r.request with
      | some n, _ => s.enqueueCommand n
      | none, some k => some (s.depart { k with step := r.step })
      | none, none => if endNode r.dest ≠ s.pkg.node then s.sendPacket c p r else s.deliverMessage p r
    match out with
    | none => s
    | some s =>
      let left := match (s.core c).inj with
        | [] => rest
        | _ :: q => q
      s.setCore c { s.core c with inj := left }

/-- INJECTION_QUEUE_DRAIN. -/
def execInjectionQueueDrain (c : Nat) (s : State) : Out := .next (s.drain c)

/-! ## Code-carrying messages (02 R59, 18 R396) -/

/-- How one word of a code-carrying message ends. -/
inductive CodeEnd where
  | ok (s : State) (th : Thread)
  /-- It issues a store of bytes to a place. -/
  | store (s : State) (pa : Nat) (bs : List Byte)
  | fault (s : State) (code : Nat)
  /-- It waits, for room or for an answer. -/
  | wait (s : State)
  deriving DecidableEq, Repr

/-- A scalar instruction of a message, run by the meaning a thread gives it on the message's private registers. -/
def scalarCode (i : Instr) (s : State) : Out :=
  match i with
  | .add g d a b => execAdd g d a b s
  | .sub g d a b => execSub g d a b s
  | .and g d a b => execAnd g d a b s
  | .or g d a b => execOr g d a b s
  | .xor g d a b => execXor g d a b s
  | .andn g d a b => execAndn g d a b s
  | .sll g d a b => execSll g d a b s
  | .srl g d a b => execSrl g d a b s
  | .sra g d a b => execSra g d a b s
  | .rol g d a b => execRol g d a b s
  | .min g d a b => execMin g d a b s
  | .max g d a b => execMax g d a b s
  | .minu g d a b => execMinu g d a b s
  | .maxu g d a b => execMaxu g d a b s
  | .mul g d a b => execMul g d a b s
  | .mulh g d a b => execMulh g d a b s
  | .mulhu g d a b => execMulhu g d a b s
  | .div g d a b => execDiv g d a b s
  | .divu g d a b => execDivu g d a b s
  | .rem g d a b => execRem g d a b s
  | .remu g d a b => execRemu g d a b s
  | .clz g d a => execClz g d a s
  | .ctz g d a => execCtz g d a s
  | .popc g d a => execPopc g d a s
  | .adx g sh d a b => execAdx g sh d a b s
  | .addi g d a imm => execAddi g d a imm s
  | .andi g d a imm => execAndi g d a imm s
  | .ori g d a imm => execOri g d a imm s
  | .xori g d a imm => execXori g d a imm s
  | .slli g d a sh => execSlli g d a sh s
  | .srli g d a sh => execSrli g d a sh s
  | .srai g d a sh => execSrai g d a sh s
  | .li g d imm => execLi g d imm s
  | .lsh g d imm => execLsh g d imm s
  | _ => .next s

/-- The private registers after a scalar instruction. -/
def scalarStep (s : State) (c : Nat) (th : Thread) (i : Instr) : Thread :=
  match scalarCode i { s with cur := c * 4, threads := [(c * 4, th)] } with
  | .next s => (s.thread (c * 4)).getD th
  | _ => th

/-- The place a code-carrying access names, or its fault code (18 R396). -/
def codePlace (s : State) (c p ea size : Nat) : Except Nat Nat :=
  if ea % size ≠ 0 then .error 0x04
  else
    match nameOf ea with
    | .tile cl off => if s.ownsCluster p cl then .ok (tilePlace cl off) else .error 0x05
    | .window off => if windowRow (s.core c).clsNow off size = some .cls then .ok (windowPlace c off) else .error 0x05
    | _ => .error 0x05

/-- An access of a message at its place: a read of poison ends it and kills the core (21 R441). -/
def codeAccess (s : State) (c p ea size : Nat) (reads : Bool) (k : Nat → CodeEnd) : CodeEnd :=
  match codePlace s c p ea size with
  | .error e => .fault s e
  | .ok pa => if reads && s.isPoisoned pa then .fault (s.consume c pa) 0x16 else k pa

/-- Whether bytes at a place meet those of a store that has not performed. -/
def sqMeets (pa n : Nat) (st : Nat × List Byte) : Bool := decide (st.1 < pa + n) && decide (pa < st.1 + st.2.length)

/-- Bytes at a place as the receive unit reads them: those of the stores that it has issued come from there (05 R120). -/
def sqBytes (sq : List (Nat × List Byte)) (pa : Nat) (bs : List Byte) : List Byte :=
  sq.foldl (fun bs st => bs.mapIdx fun i b =>
    if st.1 ≤ pa + i ∧ pa + i < st.1 + st.2.length then (st.2[pa + i - st.1]?).getD b else b) bs

/-- A load of a message, which binds when it issues (log entry 96: DESIGN CHOICE, safe). -/
def codeLoad (s : State) (c p : Nat) (sq : List (Nat × List Byte)) (th : Thread) (w : Width) (z : Bool) (d a : Reg)
    (disp : BitVec 8) : CodeEnd :=
  codeAccess s c p (eaOf th a disp w) (widthBytes w) true fun pa =>
    .ok s (th.setX d (extend (sqBytes sq pa (s.placeBytes pa (widthBytes w))) (!z)) false)

/-- A store of a message: it joins those that the receive unit has issued. -/
def codeStore (s : State) (c p : Nat) (th : Thread) (w : Width) (src a : Reg) (disp : BitVec 8) : CodeEnd :=
  codeAccess s c p (eaOf th a disp w) (widthBytes w) false fun pa =>
    .store s pa (lowBytes (th.getX src) (widthBytes w))

/-- An atomic of a message. The comparand register e0 is not of the message's private file: its value is free (log
entry 25). -/
def codeAtomic (s : State) (c p : Nat) (th : Thread) (num : Nat) (o : AOrd) (sc : AScope) (d a b : Reg) : CodeEnd :=
  codeAccess s c p (th.getX a).toNat 8 true fun pa =>
    let (cmp, s) := if num = 7 then s.takeFree else (0, s)
    let old := BitVec.ofNat 64 (leNat (s.placeBytes pa 8))
    let s := match atomicNew num old (th.getX b) cmp with
      | some w => s.storePlace pa (leBytes 8 w.toNat)
      | none => s.wakeWatch pa
    let s := match o with
      | .acq | .ar => s.acquire c (scopeOf sc)
      | _ => s
    .ok s (th.setX d old false)

/-- A RESOLVE of a message for another node's future (12 R283): the receive unit waits for the answer. -/
def codeResolveAway (s : State) (c : Nat) (th : Thread) (f v : Word) (d : Reg) : CodeEnd :=
  match th.wait with
  | .answer _ r _ => .ok s ({ th with wait := .none }.setX d r false)
  | .stale | .refused _ => .fault s 0x0C
  | .reply _ => .wait s
  | _ =>
    match s.freeTag c with
    | none => .wait s
    | some tag =>
      let s := s.futurePacket c th.part tag f 3 v 0
      let o : Outstanding := ⟨c, tag, th.part, 0x09, some (.code c), f, false, false⟩
      let s := { s with outstanding := s.outstanding ++ [o] }
      .wait (s.wake (.code c) (.reply tag))

/-- A RESOLVE of a message (18 R396). -/
def codeResolve (s : State) (c : Nat) (th : Thread) (d a b : Reg) : CodeEnd :=
  let f := th.getX a
  if s.badHandle th f then .fault s 0x0C
  else if handleNode f ≠ s.pkg.node then codeResolveAway s c th f (th.getX b) d
  else
    match s.finishFuture f .resolved (th.getX b) 0 with
    | none => .fault s 0x0C
    | some (took, s) => .ok s (th.setX d (if took then 0 else 1) false)

/-- A FDEC of a message. -/
def codeFdec (s : State) (c : Nat) (th : Thread) (a : Reg) : CodeEnd :=
  let f := th.getX a
  if s.badHandle th f then .fault s 0x0C
  else if handleNode f = s.pkg.node then .ok (s.post f (.dec f)) th
  else .ok (s.futurePacket (7168 + clusterOfCore c) th.part 0 f 7 0 0) th

/-- A SEND of a message: its arguments come from x1 to x7, and an eighth is a free value (log entry 25: DESIGN CHOICE, safe). One
with more arguments, or with a misaligned entry, ends the message (log entry 100: DEDUCED, unsafe). -/
def codeSend (s : State) (c p : Nat) (th : Thread) (d a b : Reg) : CodeEnd :=
  let m := th.getX a
  let n := wbits m 35 32
  let cl := clusterOfCore c
  if 8 < n ∨ !s.deliverable p (wbits m 31 0) then .fault s 0x15
  else if badEntry (th.getX b) then .fault s 0x04
  else if 16 < (s.core c).injUsed + (if n ≤ 5 then 1 else 2) then .wait s
  else
    let (w8, s) := if n = 8 then s.takeFree else (0, s)
    let args := (th.args 7 ++ [w8]).take n
    if wbits m 47 47 = 1 then
      if s.satisfied cl p 0 && s.noneOwed cl p then
        let (f, s) := s.allocate cl p false false .remote
        .ok (s.inject c p (messageOf s c p m false (th.getX b) 0 f args)) (th.setX d f false)
      else .wait s
    else .ok (s.inject c p (messageOf s c p m false (th.getX b) 0 0 args)) (th.setX d 0 false)

/-- One word of a code-carrying message. -/
def codeStep (s : State) (c p : Nat) (sq : List (Nat × List Byte)) (th : Thread) (i : Instr) : CodeEnd :=
  match i with
  | .ld _ w z d a disp => codeLoad s c p sq th w z d a disp
  | .st _ w _ src a disp => codeStore s c p th w src a disp
  | .aadd _ o sc _ d a b => codeAtomic s c p th 0 o sc d a b
  | .amin _ o sc _ d a b => codeAtomic s c p th 1 o sc d a b
  | .amax _ o sc _ d a b => codeAtomic s c p th 2 o sc d a b
  | .aand _ o sc _ d a b => codeAtomic s c p th 3 o sc d a b
  | .aor _ o sc _ d a b => codeAtomic s c p th 4 o sc d a b
  | .axor _ o sc _ d a b => codeAtomic s c p th 5 o sc d a b
  | .aswap _ o sc _ d a b => codeAtomic s c p th 6 o sc d a b
  | .acas _ o sc _ d a b => codeAtomic s c p th 7 o sc d a b
  | .resolve _ d a b => codeResolve s c th d a b
  | .fdec _ a => codeFdec s c th a
  | .send _ d a b => codeSend s c p th d a b
  | i => .ok s (scalarStep s c th i)

/-- Whether a word waits until a store of the receive unit has performed: an atomic for those that meet its bytes, and for all of
them when it is a release; RESOLVE, FDEC and SEND, which release, for all of them (05 R123, R125). -/
def codeAfter (th : Thread) (pa : Nat → Option Nat) (st : Nat × List Byte) : Instr → Bool
  | .aadd _ o _ _ _ a _ | .amin _ o _ _ _ a _ | .amax _ o _ _ _ a _ | .aand _ o _ _ _ a _ | .aor _ o _ _ _ a _
  | .axor _ o _ _ _ a _ | .aswap _ o _ _ _ a _ | .acas _ o _ _ _ a _ =>
    o == .rel || o == .ar || ((pa (th.getX a).toNat).map fun q => sqMeets q 8 st).getD false
  | .resolve .. | .fdec .. | .send .. => true
  | _ => false

/-- The private registers of a message (02 R59): x1 to x4 the arguments, x5 SRC, x6 REPLY, x7 zero. -/
def codeThread (p : Nat) (r : Record) : Thread :=
  let th := { Thread.fresh 0 .handler p 0 .all with supervisor := true }
  let set (th : Thread) (i : Nat) (w : Word) : Thread := th.setX (regNat i) w false
  set (set (set (set (set (set th 1 (r.arg 1)) 2 (r.arg 2)) 3 (r.arg 3)) 4 (r.arg 4)) 5 (BitVec.ofNat 64 r.src)) 6 r.reply

/-- A receive queue without one record. -/
def State.dropRecord (s : State) (c : Nat) (r : Record) : State :=
  s.setCore c { s.core c with rx := (s.core c).rx.erase r }

/-- The acquire at the start of a message's execution (02 R58). -/
def State.acquireMessage (s : State) (c : Nat) (r : Record) : State := if r.coreScope then s else s.acquire c .k

/-- A fault of a code-carrying message poisons its REPLY and is counted (18 R396). -/
def State.codeFault (s : State) (p : Nat) (r : Record) (code : Nat) : State :=
  let s := s.count p ctrMsgfault
  if r.reply = 0 then s else s.post r.reply (.poison r.reply (BitVec.ofNat 16 (0x0300 + code)))

/-- The receive unit of a core with what it runs replaced. -/
def State.setCode (s : State) (c : Nat) (run : Option CodeRun) : State := s.setCore c { s.core c with code := run }

/-- One of the stores that the receive unit has issued performs, by its place among them: an earlier one that it meets goes
first (05 R123). -/
def State.codePerform (s : State) (c : Nat) (run : CodeRun) (n : Nat) : State :=
  let i := n % run.sq.length
  match run.sq[i]? with
  | none => s
  | some (pa, bs) =>
    if (run.sq.take i).any (sqMeets pa bs.length) then s
    else (s.storePlace pa bs).setCode c (some { run with sq := run.sq.eraseIdx i })

/-- The next word of the message that a receive unit runs, or its end (02 R59). -/
def State.codeWord (s : State) (c p : Nat) (run : CodeRun) : State :=
  match run.words with
  | [] => if run.sq.isEmpty then s.setCode c none else s.codePerform c run 0
  | w :: ws =>
    match codeInstr w with
    | none => s.setCode c (some { run with words := [] })
    | some i =>
      if run.sq.any fun st => codeAfter run.regs (fun ea => (codePlace s c p ea 8).toOption) st i then s.codePerform c run 0
      else
        match codeStep s c p run.sq run.regs i with
        | .ok s th => s.setCode c (some { run with regs := th, words := ws })
        | .store s pa bs => s.setCode c (some { run with words := ws, sq := run.sq ++ [(pa, bs)] })
        | .wait s => s
        | .fault s e =>
          if run.sq.isEmpty then (s.codeFault p run.record e).setCode c none else s.codePerform c run 0

/-- A step of the receive unit on the code-carrying message that it runs (02 R59): the next word, or the performance of a store
that it has issued, which of the two is free. Steps of other agents fall between the words, and a SEND among them that finds no
room waits at its word, the words before it keeping their effects (log entry 96: DESIGN CHOICE, safe). -/
def State.runMessage (s : State) (c : Nat) (run : CodeRun) : State :=
  let p := s.clusterPart (clusterOfCore c)
  let (w, s) := s.takeFree
  if !run.sq.isEmpty && w.getLsbD 0 then s.codePerform c run (w.toNat / 2) else s.codeWord c p run

/-- The receive unit begins a code-carrying message (02 R58, R59). -/
def State.beginMessage (s : State) (c : Nat) (r : Record) : State :=
  let p := s.clusterPart (clusterOfCore c)
  ((s.dropRecord c r).acquireMessage c r).setCode c
    (some ⟨r, codeThread p r, liveCode (r.word 1) (r.word 2), []⟩)

/-! ## The receive unit (02 R56) -/

/-- Whether the handler slot of a core takes a message now. -/
def State.handlerFree (s : State) (c : Nat) : Bool :=
  s.slotEmpty (c * 4 + 3) && !s.gangKeeps (c * 4 + 3) && (s.core c).handlerHead.isNone

/-- The core whose handler slot serves a record of a core (02 R56): one for the die as a place only the field's reserved slot
serves, to which it passes (19 R420). -/
def State.handlerOf (s : State) (c : Nat) (r : Record) : Option Nat :=
  if (s.core c).h3Now && decide (endLocal r.dest < 6144) then some c else s.reservedHandler (granuleOfCore c)

/-- Whether the receive unit of a core can take a record now: code-carrying words always, an active message when it can
be handed on, discarded or checked (02 R54, R56; 19 R420). -/
def State.takeable (s : State) (c : Nat) (r : Record) : Bool :=
  r.isCode
    || (match s.handlerOf c r with
      | none => true
      | some h =>
        if h = c then s.handlerFree c
        else !s.gangKeeps (h * 4 + 3) && !(s.core h).killed && decide (r.size ≤ (s.core h).rxFree))

/-- The oldest record of the highest PRIO present (02 R56). -/
def pickRecord (q : List Record) : Option Record := [3, 2, 1, 0].findSome? fun n => q.find? fun r => r.prio == n

/-- The largest CLS a handler of a core can declare, in 256-byte units. -/
def State.clsShare (s : State) (c : Nat) : Nat := (s.core c).clsNow * 256

/-- A handler's header is checked at its core (19 R413): a failing one drops the message and poisons its REPLY. A message that
passes stays at the head of the receive queue until its handler starts (02 R56). -/
def State.takeActive (s : State) (c : Nat) (r : Record) : State :=
  let p := s.clusterPart (clusterOfCore c)
  let ent := (r.word 1).toNat
  let fail (st v : Nat) : State :=
    let s := (s.dropRecord c r).count p ctrHdrfail
    if r.reply = 0 then s
    else s.post r.reply (.poisonVal r.reply (BitVec.ofNat 64 v) (BitVec.ofNat 16 st))
  if s.headerWaits p (dieOfCore c) (s.part p).hdom ent then s
  else
  match s.header p (dieOfCore c) (s.part p).hdom ent [kindHandler] with
  | .error (st, v) => fail st v
  | .ok h => if s.clsShare c < h.clsscr then fail 0x0407 ent else s.setCore c { s.core c with handlerHead := some (r, h) }

/-- MESSAGE_RECEIPT: a step of the message that the receive unit of a core runs, or else it takes a record (02 R56): the oldest of
the highest PRIO, behind which the others wait while it cannot go. -/
def State.receipt (s : State) (c : Nat) : State :=
  let k := s.core c
  if k.killed || k.handlerHead.isSome then s
  else
    match k.code, (pickRecord k.rx).filter (s.takeable c) with
    | some run, _ => s.runMessage c run
    | none, none => s
    | none, some r =>
      if r.isCode then s.beginMessage c r
      else
        match s.handlerOf c r with
        | none => (s.dropRecord c r).answerRecord (s.clusterPart (clusterOfCore c)) r 0x0C
        | some h => if h = c then s.takeActive c r else ((s.dropRecord c r).receive h { r with coreScope := false }).getD s

/-- MESSAGE_RECEIPT. -/
def execMessageReceipt (c : Nat) (s : State) : Out := .next (s.receipt c)

/-- The thread of a handler at its first instruction (02 R56). -/
def handlerStartThread (s : State) (c : Nat) (r : Record) (h : Header) (off : Nat) : Thread :=
  let p := s.clusterPart (clusterOfCore c)
  let th := Thread.fresh ((r.word 1).truncate 56) .handler p (s.part p).hdom h
  let x := (List.range 8).foldl (fun x i => x.setIfInBounds (i + 1) (r.arg (i + 1))) th.x
  { th with
    x := (x.set 9 (BitVec.ofNat 64 r.src)).set 10 r.reply
    future := r.reply, homeCluster := clusterOfCore c
    spanOff := off, spanLen := h.clsscr, ownOff := off, ownLen := h.clsscr, dispatched := s.now, held := s.now }

/-- HANDLER_START: the message that waits at a core's handler slot starts when the slot is empty and its CLS is free
(02 R56, R58). -/
def State.startHandler (s : State) (c : Nat) : State :=
  match (s.core c).handlerHead with
  | some (r, h) =>
    let t := c * 4 + 3
    if s.slotEmpty t && !s.gangKeeps t then
      match s.clsFit c h.clsscr with
      | some off =>
        let s := (s.dropRecord c r).setCore c { (s.dropRecord c r).core c with handlerHead := none }
        let s := (s.freshCls c off h.clsscr).acquireMessage c r
        (s.setThread t (handlerStartThread s c r h off)).wakeCore c
      | none => s
    else s
  | none => s

/-- HANDLER_START. -/
def execHandlerStart (c : Nat) (s : State) : Out := .next (s.startHandler c)

end Sys2Proof.Machine
end

