-- ==== Sys2Proof/Machine/EngineOps.lean ====
section
/-!
DEFINITION. What an engine's hart does: its loads and stores, a part for each granule, with the contour registers in force at
its ENG (spec/05 R118, R132, spec/09 R240, spec/12 R305), how a command ends short (spec/18 R397 to R399, spec/20 R432, R433),
and the delivery of a collective's data (spec/12 R310, spec/15 R338, R339).
-/

namespace Sys2Proof.Machine

/-! ## Parts of a range (05 R118) -/

/-- How many aligned units of `u` bytes a range meets. -/
def partCount (u va len : Nat) : Nat := if len = 0 then 0 else (va + len - 1) / u - va / u + 1

/-- The address and the length of part `j` of a range. -/
def partAt (u va len j : Nat) : Nat × Nat :=
  let a := Nat.max va ((va / u + j) * u)
  (a, Nat.min (va + len) ((va / u + j + 1) * u) - a)

/-- The bytes of one access to a range whose region has an ATOM right: 16 on an ATOM page, a granule elsewhere (05 R118). -/
def partUnit (atom : Bool) : Nat := if atom then 16 else 64

/-- The parts of a string of bytes at an address. -/
def partsOf (u va : Nat) (bs : List Byte) : List (Nat × List Byte) :=
  (List.range (partCount u va bs.length)).map fun j =>
    let x := partAt u va bs.length j
    (x.1, (bs.drop (x.1 - va)).take x.2)

/-! ## Loads -/

/-- A byte of the stores that a hart has issued, the latest of them, or another (05 R120). -/
def overlayEng (sq : List EngStore) (va : Nat) (bs : List Byte) : List Byte :=
  sq.foldl (fun bs st => bs.mapIdx fun i b =>
    if st.va ≤ va + i ∧ va + i < st.va + st.data.length then (st.data[va + i - st.va]?).getD b else b) bs

/-- Whether the stores that a hart has issued give every byte of a load (05 R120). -/
def engCovers (sq : List EngStore) (va n : Nat) : Bool :=
  (List.range n).all fun i => sq.any fun st => decide (st.va ≤ va + i) && decide (va + i < st.va + st.data.length)

/-- Why an engine's access ends its command (18 R397). -/
inductive EngStop where
  | refused (r : Refused) (write : Bool) (va : Nat)
  | poisoned
  | sealed
  | atomattr
  /-- A contour element under TRAP, in the state whose COUNT has taken it. -/
  | contour (s : State)
  | prot
  /-- The access waits for the interface to reach RUN (15 R344): the command tries again. -/
  | waits
  deriving DecidableEq, Repr

/-- The state in which an access has failed: a contour element has been counted in its own. -/
def EngStop.atState (e : EngStop) (s : State) : State :=
  match e with
  | .contour s' => s'
  | _ => s

/-- Operand word `i` of a command. -/
def Command.word (c : Command) (i : Nat) : Nat := ((c.words[i]?).getD 0).toNat

/-- The ATOM right of the region of operand range `i` of a command. -/
def Command.atom (c : Command) (i : Nat) : Bool := (c.atoms[i]?).getD false

/-- The place of a command's engine. -/
def Command.die (c : Command) : Nat := engineDie c.engine

/-- A walk that an engine's access makes enters its page into the slice, unless the access is refused; `atom` is the right of the
region where one covers it (04 R105; 20 R425). -/
def State.engWalk (s : State) (p die va : Nat) (write : Bool) (atom : Option Bool) : State :=
  let k := s.part p
  if nameOf va ≠ .translated ∨ (k.held die (lineOf va)).isSome ∨ (k.cached die va).isSome then s
  else
    match (walk s p (lineOf va) write).bind fun g => g.allows write (atom.getD g.atom) with
    | .ok g => s.fillXlate p die (lineOf va) g
    | .error _ => s

/-- The page of an engine's access, whose ATOM bit is that of the region where one covers the access; a line that the L2 of its die
holds needs no translation (04 R105; 20 R424). -/
def engPage (s : State) (p die va : Nat) (write : Bool) (atom : Option Bool) : Except Refused Page :=
  if atom = some false ∨ (atom = none ∧ ((s.part p).held die (lineOf va)).isSome) then linePage s p die (lineOf va) write
  else (translate s p die (lineOf va) write).bind fun g => g.allows write (atom.getD g.atom)

/-- One part of a load by an engine of die `die`, whose hart has issued some stores: they give its bytes, and memory each other one
(05 R120, R132). -/
def State.engLoad (s : State) (p die va n : Nat) (atom : Option Bool) (sq : List EngStore) :
    Except EngStop (State × List Byte) :=
  if engCovers sq va n then .ok (s, overlayEng sq va (List.replicate n 0))
  else
  match nameOf va with
  | .tile cl off =>
    if !s.ownsCluster p cl then .error .prot
    else if s.isPoisoned (tilePlace cl off) then .error .poisoned
    else .ok (s, overlayEng sq va (s.placeBytes (tilePlace cl off) n))
  | .translated =>
    if s.hostWaits p die (lineOf va) then .error .waits
    else
      let s := s.engWalk p die va false atom
      match engPage s p die va false atom with
      | .error r => .error (.refused r false va)
      | .ok g =>
        if g.atom then
          if s.isPoisoned (g.place va) then .error .poisoned else .ok (s, overlayEng sq va (s.load (g.place va) n))
        else
          let (s, l) := s.sliceAt p die (lineOf va) (g.place (lineOf va)) g.w false
          if l.bad then .error .poisoned else .ok (s, overlayEng sq va ((l.data.drop (va % 64)).take n))
  | _ => .error .prot

/-- One part of a load of a command, kept under a key. -/
def State.engFetch (s : State) (c : Command) (key va n : Nat) (atom : Option Bool) : Except EngStop (State × Command) :=
  (s.engLoad c.part c.die va n atom c.sq).map fun x => (x.1, { c with got := c.got.put key x.2 })

/-- Bytes that a command has loaded under consecutive keys. -/
def Command.gathered (c : Command) (key n : Nat) : List Byte :=
  (List.range n).flatMap fun j => (c.got.find (key + j)).getD []

/-- Whether all parts under consecutive keys have been loaded. -/
def Command.hasAll (c : Command) (key n : Nat) : Bool := (List.range n).all fun j => (c.got.find (key + j)).isSome

/-- A command without what it has loaded under consecutive keys. -/
def Command.forgets (c : Command) (key n : Nat) : Command :=
  { c with got := c.got.filter fun e => !(decide (key ≤ e.1) && decide (e.1 < key + n)) }

/-! ## Stores -/

/-- The contour check of an engine's store against the registers in force at its ENG; COUNT is the issuing core's (09
R240, R241; 18 R397). -/
def State.engContour (s : State) (cmd : Command) (va : Nat) (bs : List Byte) : Except EngStop (State × List Byte) :=
  let k := s.core cmd.core
  let regs := cmd.contours.map fun e => (e.1, { e.2 with count := (k.contour e.1).count })
  let (out, res) := contourCheck regs va bs
  let contours := out.foldl
    (fun m e => if e.2.count = (k.contour e.1).count then m else m.put e.1 { k.contour e.1 with count := e.2.count })
    k.contours
  let s := s.setCore cmd.core { k with contours := contours }
  match res with
  | .pass d => .ok (s, leBytes bs.length d)
  | .trap _ _ => .error (.contour s)

/-- A store of a command issues, of the block, element or granule `unit`: it is checked, and its parts enter the hart's SQ
(05 R119, R132). -/
def State.engIssue (s : State) (c : Command) (unit va : Nat) (bs : List Byte) (atom : Bool) : Except EngStop (State × Command) :=
  (s.engContour c va bs).map fun x =>
    (x.1, { c with sq := c.sq ++ (partsOf (partUnit atom) va x.2).map fun q => ⟨q.1, q.2, atom, unit, none⟩ })

/-- Stores of a command issue one after another, each with its unit: the first that fails ends the command. -/
def issueAll (atom : Bool) : List (Nat × Nat × List Byte) → State → Command → Except (Nat × EngStop) (State × Command)
  | [], s, c => .ok (s, c)
  | (unit, va, bs) :: rest, s, c =>
    match s.engIssue c unit va bs atom with
    | .error e => .error (unit, e)
    | .ok (s, c) => issueAll atom rest s c

/-- The place of a store that a command is about to perform: the seal table, the translation, and the rights of its page
(18 R397, 20 R424). -/
def State.engAccept (s : State) (c : Command) (st : EngStore) : Except EngStop Nat :=
  match nameOf st.va with
  | .tile cl off => if s.ownsCluster c.part cl then .ok (tilePlace cl off) else .error .prot
  | .translated =>
    if s.hostWaits c.part c.die (lineOf st.va) then .error .waits
    else if (s.part c.part).sealedAt st.va then .error .sealed
    else
      match engPage s c.part c.die st.va true (some st.atom) with
      | .error r => .error (.refused r true st.va)
      | .ok g => .ok (g.place st.va)
  | _ => .error .prot

/-- The hart's stores once those of one unit have their places: a unit is written whole or not at all (18 R398, 20 R432,
R433). -/
def State.engBegin (s : State) (c : Command) (unit : Nat) : Except EngStop (List EngStore) :=
  c.sq.mapM fun st =>
    if st.unit ≠ unit ∨ st.place.isSome then .ok st else (s.engAccept c st).map fun pa => { st with place := some pa }

/-! ## How a command ends (18 R397, 20 R432, R433) -/

/-- TAG of the blocks of a class-2 command, from its members and its step: they tell the blocks of one command from those of another
(15 R330, R338; log entry 117: DESIGN CHOICE, unsafe). -/
def stippleTag (members : List Nat) (step : Nat) : Nat := groupNumber members % 2 ^ 16 * 2 ^ 16 + step % 2 ^ 16

/-- TAG of a class-2 command's blocks. -/
def Command.stippleTag (c : Command) : Nat := Machine.stippleTag c.members (c.word 1)

/-- The tag of a class-2 command that has ended, with its members: blocks of it that are still to come are late (15 R338). -/
def State.noteStippled (s : State) (c : Command) : State :=
  if engineOf c.engine = some .collective ∧ c.op = 1 ∧ c.word 6 % 4 = 2 then
    let k := s.part c.part
    s.setPart c.part { k with stippled := (c.stippleTag, c.members) :: k.stippled }
  else s

/-- A command has its STATUS and VALUE. -/
def State.finishCommand (s : State) (n : Nat) (c : Command) (status value : Nat) : State :=
  (s.noteStippled c).setCommand n { c with finished := some (status, BitVec.ofNat 64 value) }

/-- VALUE of FAULTED (20 R432). -/
def faultValue (r : Refused) (write : Bool) (pos : Nat) : Nat :=
  r.cause.code * 2 ^ 56 + bit write * 2 ^ 55 + r.reason % 128 * 2 ^ 48 + pos % 2 ^ 48

/-- STATUS and VALUE of a command that an access ends, from its POS and the VALUE of 18 R398. -/
def EngStop.answer (e : EngStop) (pos value : Nat) : Nat × Word :=
  match e with
  | .refused r write _ => (2, BitVec.ofNat 64 (faultValue r write pos))
  | .prot => (3, BitVec.ofNat 64 value)
  | .sealed => (4, BitVec.ofNat 64 value)
  | .atomattr => (5, BitVec.ofNat 64 value)
  | .contour _ => (6, BitVec.ofNat 64 value)
  | _ => (7, 0)

/-- The destination page of block `b` of a COPY, from its first one (12 R307). -/
def Command.pageOf (c : Command) (b : Nat) : Nat := (c.word 1 + 256 * b) / 4096 - c.word 1 / 4096

/-- The first block of destination page `k` of a COPY. -/
def Command.pageStart (c : Command) (k : Nat) : Nat := if k = 0 then 0 else ((c.word 1 / 4096 + k) * 4096 - c.word 1) / 256

/-- The unit by which a store that lies in no destination goes: a mask, or STEPDONE. -/
def besideUnit : Nat := 2 ^ 62

/-- Where a failure at a unit stops a command: the blocks that are to be finished first, POS, and the VALUE of 18 R398. -/
def State.stopAt (s : State) (c : Command) (unit : Nat) : Nat × Nat × Nat :=
  match engineOf c.engine, c.op with
  | some .copier, 1 =>
    let first := c.pageStart (c.pageOf unit)
    (first, 256 * first, 256 * unit)
  | some .copier, _ =>
    let off := c.pos * 2 ^ ((s.cluster (c.engine - 8192)).ring (c.word 1 % 16)).slotsz
    (0, off, off + 256 * unit)
  | _, _ => if besideUnit ≤ unit then (0, 0, 0) else (0, unit, unit)

/-- An access of a unit of a command has failed: what goes before is finished, what has been accepted performs, and nothing
else does. Of two failures of a COPY the one in the lower page counts (20 R433). -/
def State.haltCommand (s : State) (n : Nat) (c : Command) (e : EngStop) (unit : Nat) : State :=
  let (limit, pos, value) := s.stopAt c unit
  let s := e.atState s
  if e = .waits ∨ (c.stop.map fun x => decide (x.1 ≤ limit)).getD false then s
  else
    let s := match e with
      | .refused r _ va => s.s2refusal c.part va r
      | _ => s
    s.setCommand n { c with
      sq := c.sq.filter fun st => st.place.isSome || decide (st.unit < limit)
      stop := some (limit, e.answer pos value) }

/-- A rejected command (18 R399). -/
def State.badCommand (s : State) (n : Nat) (c : Command) : State := s.finishCommand n c 1 0

/-- STATUS and VALUE of a command that has stopped and has nothing left to finish. -/
def Command.quits (c : Command) : Option (Nat × Word) :=
  match c.stop with
  | some (limit, answer) => if c.sq.isEmpty && (List.range limit).all c.done.contains then some answer else none
  | none => none

/-- Whether all stores of a unit have issued, of which none performs before: an element of a GATHER is written whole or not at all,
and its words issue one by one (12 R308; 20 R432). -/
def Command.unitWhole (c : Command) (unit : Nat) : Bool := engineOf c.engine != some .gather || c.done.contains unit

/-- A store of a command performs, by its place among those its hart has issued: an earlier one that it meets goes first
(05 R123, R132). -/
def State.engPerform (s : State) (n : Nat) (c : Command) (i : Nat) : State :=
  let i := i % c.sq.length
  match c.sq[i]? with
  | none => s
  | some st =>
    if !c.unitWhole st.unit || (c.sq.take i).any fun x => decide (x.va < st.va + st.data.length) && decide (st.va < x.va + x.data.length) then s
    else
      match st.place with
      | some pa => s.engPerformed n c st pa
      | none =>
        let s := s.engWalk c.part c.die st.va true (some st.atom)
        match s.engBegin c st.unit with
        | .error e => s.haltCommand n c e st.unit
        | .ok sq =>
          match sq[i]? with
          | some st => (st.place.map fun pa => s.engPerformed n { c with sq := sq } st pa).getD s
          | none => s

/-! ## The steps of a command -/

/-- Commands of an engine that run. -/
def State.running (s : State) (loc : Nat) : Nat :=
  (s.commands.filter fun e => e.2.engine == loc && e.2.started && e.2.finished.isNone).length

/-- Whether a command waits in the inbox of its engine; one of a partition under teardown is not taken (22 R462). -/
def State.inInbox (s : State) (c : Command) : Bool :=
  c.arrived && !c.started && !c.cancelled && c.finished.isNone && !(s.part c.part).ending

/-- Whether an engine may take a command from its inbox: it is the oldest there, and fewer than 4 run (12 R305). -/
def State.mayStart (s : State) (n : Nat) (c : Command) : Bool :=
  s.inInbox c && decide (s.running c.engine < 4)
    && s.commands.all fun e =>
      !(e.2.engine == c.engine && s.inInbox e.2)
        || decide (c.startedAt < e.2.startedAt) || (c.startedAt == e.2.startedAt && decide (n ≤ e.1))

/-- One step of a command of an engine and operation: the engine takes it from its inbox and checks its operands; then, as `k`
chooses, one of its stores performs or its microprogram goes on (05 R116, R132). A command that has stopped ends once nothing
is left to finish. -/
def State.stepCommand (s : State) (n k : Nat) (e : Engine) (op : Nat) (bad : Command → Bool)
    (go : State → Command → Nat → State) : State :=
  match s.commands.find n with
  | none => s
  | some c =>
    if engineOf c.engine ≠ some e ∨ c.op ≠ op then s
    else if !c.started then
      if !s.mayStart n c then s
      else
        let c := { c with started := true, startedAt := s.now }
        if bad c then s.badCommand n c else s.setCommand n c
    else if k % 2 = 1 then s.engPerform n c (k / 2)
    else if c.finished.isSome then s
    else
      match c.quits with
      | some (st, v) => s.finishCommand n c st v.toNat
      | none => go s c (k / 2)

/-- Whether a cancelled command has nothing under way: it stops at the next page, element, slot or step (12 R292). -/
def Command.resting (c : Command) : Bool :=
  c.sq.isEmpty && match engineOf c.engine, c.op with
    | some .copier, 1 => (List.range (Nat.min (c.word 2 / 256) (c.pageStart c.pos))).all c.done.contains
    | some .copier, _ => c.done.isEmpty && c.got.isEmpty
    | some .gather, _ | some .atomicUnit, _ => c.got.isEmpty
    | _, _ => true

/-! ## Collectives (12 R310; 15 R338 to R340) -/

/-- CRC-32C of a byte string, the Castagnoli polynomial reflected (15 R330; log entry 26: PRESUMED, unsafe). -/
def crc32c (bs : List Byte) : Nat :=
  let bitStep (c : Nat) : Nat := if c % 2 = 1 then (c / 2) ^^^ 0x82F63B78 else c / 2
  let byteStep (c : Nat) (b : Byte) : Nat := (List.range 8).foldl (fun c _ => bitStep c) (c ^^^ b.toNat)
  (bs.foldl byteStep 0xFFFFFFFF) ^^^ 0xFFFFFFFF

/-- Bytes that a collective takes from each member. -/
def Command.share (c : Command) : Nat := if c.op = 1 then c.word 4 else c.word 4 * reduceBytes (c.word 5 % 32)

/-- The traffic class of a collective command. -/
def Command.cls (c : Command) : Nat := c.word 6 % 4

/-- Payload bytes of one collective data packet (15 R330). -/
def chunkBytes : Nat := 4096

/-- Packets that carry one member's bytes. -/
def Command.chunks (c : Command) : Nat := (c.share + chunkBytes - 1) / chunkBytes

/-- 256-byte blocks of the destination of an ALLGATHER. -/
def Command.nblocks (c : Command) : Nat := (c.members.length * c.word 4 + 255) / 256

/-- The key of a chunk of a member's bytes. -/
def chunkKey (rank j : Nat) : Nat := rank * 2 ^ 32 + j

/-- The key of a member's packet totals (16 R358). -/
def totalsKey (rank : Nat) : Nat := 2 ^ 60 + rank

/-- The key of a part of the list of a group's members. -/
def memberKey : Nat := 2 ^ 61

/-- The key of a part of a member's own bytes. -/
def sourceKey : Nat := 2 ^ 62

/-- The running collective command of a partition that takes data from a node, with its number: the one issued first of those that
satisfy a test (log entry 81: DEDUCED, unsafe). -/
def State.collectiveFor (s : State) (p node : Nat) (t : Command → Bool) : Option (Nat × Command) :=
  (s.commands.filter fun e =>
      let c := e.2
      engineOf c.engine == some .collective && c.part == p && c.started && c.finished.isNone && c.stop.isNone && !c.cancelled
        && !c.closing && c.members.contains node && t c).foldl
    (fun m e => match m with
      | some b => if e.1 < b.1 then some e else m
      | none => some e) none

/-- Whether a command is that of a step of a group, as collective data names them (15 R330; log entry 101: DESIGN CHOICE, safe). -/
def Command.ofStep (step group : Nat) (c : Command) : Bool := c.word 1 % 2 ^ 32 == step && groupNumber c.members == group

/-- Whether a command takes the blocks of a TAG (15 R338). -/
def Command.ofStipple (tag : Nat) (c : Command) : Bool := c.cls == 2 && c.stippleTag == tag

/-- The stores that deliver bytes at an offset of a destination, a granule at a time; `unit` is their offset there. -/
def deliveries (base off : Nat) (bs : List Byte) : List (Nat × Nat × List Byte) :=
  (partsOf 64 (base + off) bs).map fun q => (q.1 - base, q.1, q.2)

/-- Deliver bytes at an offset of a collective's destination; `c'` is the command once it has them. -/
def State.deliverAt (s : State) (n : Nat) (c c' : Command) (off : Nat) (bs : List Byte) : State :=
  match issueAll (c.atom 1) (deliveries (c.word 3) off bs) s c' with
  | .error (unit, e) => s.haltCommand n c e unit
  | .ok (s, c') => s.setCommand n c'

/-- The byte at an offset of an ALLGATHER's destination, once the chunk that holds it has come. -/
def Command.byteAt (c : Command) (o : Nat) : Option Byte :=
  (c.got.find (chunkKey (o / c.word 4) (o % c.word 4 / chunkBytes))).bind fun bs => bs[o % c.word 4 % chunkBytes]?

/-- The bytes of a granule of an ALLGATHER's destination, once all of them have come: one that two members share is written whole
(20 R432). -/
def Command.granuleAt (c : Command) (g : Nat) : Option (List Byte) :=
  (List.range (Nat.min 64 (c.members.length * c.word 4 - 64 * g))).mapM fun i => c.byteAt (64 * g + i)

/-- The stores of the granules that a range of an ALLGATHER's destination meets, of those whose bytes have all come. -/
def Command.granulesOf (c : Command) (off n : Nat) : List (Nat × Nat × List Byte) :=
  if n = 0 then []
  else
    (List.range ((off + n - 1) / 64 - off / 64 + 1)).filterMap fun i =>
      let g := off / 64 + i
      (c.granuleAt g).map fun bs => (64 * g, c.word 3 + 64 * g, bs)

/-- One chunk of a member's bytes arrives, and is kept: an ALLGATHER stores the granules that it completes, an ALLREDUCE waits for
every member's. -/
def State.takeChunk (s : State) (n : Nat) (c : Command) (rank j : Nat) (bs : List Byte) : State :=
  let off := j * chunkBytes
  let bs := bs.take (c.share - off)
  let c' := { c with
    done := chunkKey rank j :: c.done.filter (· != chunkKey rank j), got := c.got.put (chunkKey rank j) bs }
  if c.op = 1 then
    match issueAll (c.atom 1) (c'.granulesOf (rank * c.word 4 + off) bs.length) s c' with
    | .error (unit, e) => s.haltCommand n c e unit
    | .ok (s, c') => s.setCommand n c'
  else s.setCommand n c'

/-- One block of a class-2 destination is delivered: its contents as sent (15 R338). -/
def State.takeBlock (s : State) (n : Nat) (c : Command) (b : Nat) (bs : List Byte) : State :=
  s.deliverAt n c { c with blocks := b :: c.blocks.filter (· != b) } (256 * b) bs

end Sys2Proof.Machine
end

