-- ==== Sys2Proof/Machine/Packets.lean ====
section
/-!
DEFINITION. Packets that another node sends: messages, reads, writes and atomics with their replies, collective data,
stipple blocks and error replies (spec/02 R60, spec/04 R89, spec/12 R302, R303, R310, spec/15 R328 to R338, spec/20
R439, spec/22 R461 to R463).
-/

namespace Sys2Proof.Machine

/-! ## Messages (02 R55) -/

/-- The record that a message packet brings. -/
def packetRecord (k : Packet) : Record :=
  let n := k.payload.length / 64
  let word (i : Nat) : Word := BitVec.ofNat 64 (leNat ((k.payload.drop (8 * i)).take 8))
  let ws := (List.range (8 * n)).map word
  ⟨if k.ptype = 2 then ws else if n ≤ 1 then ws else ws.take 16, n, k.dest, k.cls == 1, none, false, k.tag, k.step, none⟩

/-- Whether the header of a message is one that R55 lays out: no reserved bit set, the KIND of its packet, and no more arguments than
that carries (00 R12). -/
def messageLegal (k : Packet) (r : Record) : Bool :=
  let h := r.word 0
  wbits h 4 0 == 0 && wbits h 31 28 == k.ptype - 1 && decide (wbits h 27 24 ≤ (if r.isCode then 4 else 8))

/-- A message packet of a partition: refused where its endpoint is none of the partition's, or where its header is none (log entry
115: DESIGN CHOICE, unsafe), and otherwise delivered; with a full receive queue it stays where it is. -/
def State.takeMessage (s : State) (k : Packet) (p : Nat) : Option State :=
  let loc := endLocal k.dest
  let known := if loc < 6144 then s.ownsCluster p (clusterOfCore loc) else decide (loc < 6150) && (s.part p).onDie (loc - 6144)
  if !known || !messageLegal k (packetRecord k) then some (s.refusePacket p k 0x0A) else s.deliverMessage p (packetRecord k)

/-! ## Reads, writes and atomics at their target (04 R89, 05 R118, 20 R439) -/

/-- The address in translated memory that a packet names. -/
def packetOffset (k : Packet) : Nat := k.arg % 2 ^ 46

/-- Whether an incoming access waits for the interface of its partition to reach RUN (15 R344). -/
def State.fabricWaits (s : State) (p die : Nat) (k : Packet) : Bool :=
  match regionFor s p die (s.part p).fdom (packetOffset k) with
  | .error .waits => true
  | _ => s.hostWaits p die (lineOf (packetOffset k))

/-- The place of an incoming access under the fabric domain, as the hart of a gateway of die `die` finds it, or the code of its
refusal; `write` and `casq` say whether it writes and whether it needs an ATOM page. -/
def State.fabricPlace (s : State) (p die va : Nat) (write casq : Bool) :
    Except (Nat × Option Refused) Page :=
  match regionFor s p die (s.part p).fdom va with
  | .error _ => .error (2, none)
  | .ok none => .error (2, none)
  | .ok (some (_, _, r)) =>
    if !(if write then r.w else r.rd) then .error (2, none)
    else if write && (s.part p).sealedAt va then .error (5, none)
    else if casq && !r.atom then .error (6, none)
    else
      match engPage s p die va write (some r.atom) with
      | .ok g => .ok g
      | .error e => .error (if e.place = 3 then (3, none) else (4, some e))

/-- A refused access at its target: the reply, REMREF, and the count and report of a stage-2 refusal (20 R429, R439). -/
def State.refuseFabric (s : State) (p : Nat) (k : Packet) (e : Nat × Option Refused) : State :=
  let s := s.count p ctrRemref
  (match e.2 with
    | some r => s.s2refusal p (packetOffset k) r
    | none => s).refusePacket p k e.1

/-- A reply to a request; `op` 1 says that it returns poison (21 R441). -/
def State.replyPacket (s : State) (p : Nat) (k : Packet) (ptype op : Nat) (payload : List Byte) : State :=
  let r := s.packet p ptype k.dest k.src 1 0 0 payload.length k.tag 0 payload
  s.emit { r with op := op }

/-- The line of an incoming access at its home, or the granule of an ATOM page (05 R118). -/
def State.fabricLine (s : State) (p : Nat) (g : Page) (va : Nat) : LineData :=
  let pa := g.place (lineOf va)
  if g.atom then ⟨s.load pa 64, s.isPoisoned pa, pa, 5⟩ else s.homeData p (lineOf va) pa

/-- An operation at the home of an incoming access: a line's copies are removed first, an ATOM page has none (05 R122). -/
def State.fabricStep (s : State) (p die : Nat) (g : Page) (va n : Nat) (f : List Byte → Option (List Byte)) :
    Except Refused (State × List Byte) :=
  if g.atom then
    let pa := g.place va
    let old := s.load pa n
    let s := match f old with
      | some bs => s.storeAt p pa bs
      | none => s
    .ok (s.wakeWatch pa, old)
  else s.performHome p die va n true f

/-- A read request: bound at the home, and answered with the value or with its poison. -/
def State.takeRead (s : State) (k : Packet) (p die : Nat) : State :=
  let va := packetOffset k
  match s.fabricPlace p die va false false with
  | .error e => s.refuseFabric p k e
  | .ok g =>
    let s := s.engWalk p die va false (some g.atom)
    let l := s.fabricLine p g va
    let s := if g.atom then s else s.fetchHome p (lineOf va) (g.place (lineOf va)) g.w
    if l.bad then s.replyPacket p k 0x04 1 (leBytes 8 0)
    else s.replyPacket p k 0x04 0 (leBytes 8 (leNat ((l.data.drop (va % 64)).take k.len)))

/-- A write: performed at the home as G = 1, and acknowledged. -/
def State.takeWrite (s : State) (k : Packet) (p die : Nat) : State :=
  let va := packetOffset k
  match s.fabricPlace p die va true false with
  | .error e => s.refuseFabric p k e
  | .ok g =>
    let s := s.engWalk p die va true (some g.atom)
    match s.fabricStep p die g va k.payload.length fun _ => some k.payload with
    | .ok (s, _) => s.replyPacket p k 0x06 0 []
    | .error _ => s.refuseFabric p k (3, none)

/-- The operation of an atomic packet (log entry 18: DESIGN CHOICE, safe). -/
def packetOp (k : Packet) : AccOp :=
  let low (i n : Nat) : Nat := leNat ((k.payload.drop i).take n)
  if k.op = 8 then .casq (BitVec.ofNat 128 (low 0 16)) (BitVec.ofNat 128 (low 16 16))
  else .atomic k.op (BitVec.ofNat 64 (low 0 8)) (BitVec.ofNat 64 (low 16 8))

/-- An atomic: performed at its target, and answered with the old value; one that meets poison performs nothing. -/
def State.takeAtomic (s : State) (k : Packet) (p die : Nat) : State :=
  let va := packetOffset k
  let casq := k.op == 8
  let n := if casq then 16 else 8
  match s.fabricPlace p die va true casq with
  | .error e => s.refuseFabric p k e
  | .ok g =>
    let s := s.engWalk p die va true (some g.atom)
    if (s.fabricLine p g va).bad then s.replyPacket p k 0x08 1 (leBytes n 0)
    else
      let result (old : List Byte) : Option (List Byte) :=
        match packetOp k with
        | .atomic op b cmp => (atomicNew op (BitVec.ofNat 64 (leNat old)) b cmp).map fun w => leBytes 8 w.toNat
        | .casq new cmp => if leNat old = cmp.toNat then some (leBytes 16 new.toNat) else none
        | _ => none
      match s.fabricStep p die g va n result with
      | .ok (s, old) => s.replyPacket p k 0x08 0 old
      | .error _ => s.refuseFabric p k (3, none)

/-! ## Replies (02 R60, 12 R302, R303) -/

/-- The outstanding request of a type that a reply's DEST and TAG name (15 R330). -/
def State.requestOf (s : State) (k : Packet) (ptype : Nat) : Option Outstanding :=
  s.outstanding.find? fun o => o.core == endLocal k.dest && o.tag == k.tag && o.ptype == ptype

/-- A request is outstanding no more; an asynchronous load is behind its thread (05 R125). -/
def State.dropOutstanding (s : State) (o : Outstanding) : State :=
  let s := { s with outstanding := s.outstanding.filter (· != o) }
  if o.waiter.isNone && o.future != 0 then s.boundRemote o.future else s

/-- A request ends: the thread that waits has its answer, or the future of an asynchronous load its value. Poison is
consumed where it arrives (21 R441). -/
def State.endRequest (s : State) (o : Outstanding) (poisoned : Bool) (w : Wait) (value : Word) : State :=
  let s := s.dropOutstanding o
  if poisoned then s.consume o.core (2 ^ 62)
  else
    match o.waiter with
    | some q => s.wake q w
    | none => if o.future = 0 then s else s.post o.future (.resolve o.future value 0)

/-- The two words of a reply. -/
def packetWords (k : Packet) : Word × Word :=
  (BitVec.ofNat 64 (leNat (k.payload.take 8)), BitVec.ofNat 64 (leNat ((k.payload.drop 8).take 8)))

/-- A reply to a request of a type. -/
def State.takeReply (s : State) (k : Packet) (ptype : Nat) : State :=
  match s.requestOf k ptype with
  | none => s
  | some o => s.endRequest o (k.op == 1) (.value (packetWords k).1 (packetWords k).2) (packetWords k).1

/-- A storage endpoint's acknowledgement of a packet of the running drain reaches the Proof engine (16 R357, R361). -/
def State.takeDrainAck (s : State) (p tag : Nat) : State :=
  let part := s.part p
  if part.proof.armed.isSome && tag == part.proof.serial % 2 ^ 32 then
    s.setPart p { part with proof := { part.proof with acks := part.proof.acks + 1 } }
  else s

/-- A write's acknowledgement: of an RST or store, or of a drain packet. -/
def State.takeAck (s : State) (k : Packet) (p : Nat) : State :=
  if endLocal k.dest = 9248 then s.takeDrainAck p k.tag else s.takeReply k 5

/-! ## Collective data (12 R310, 15 R338) -/

/-- The number that stands for a member's packet totals in place of a chunk's (log entry 28: DESIGN CHOICE, unsafe). -/
def totalsChunk : Nat := 2 ^ 20

/-- The command for which collective data has come. -/
def State.dataFor (s : State) (k : Packet) (p : Nat) : Option (Nat × Command) :=
  s.collectiveFor p (endNode k.src) (Command.ofStep (k.arg % 2 ^ 32) (k.arg / 2 ^ 32))

/-- Whether a packet is for a collective engine of a die of its partition (22 R461). -/
def State.collectiveHere (s : State) (k : Packet) (p : Nat) : Bool :=
  engineOf (endLocal k.dest) == some .collective && s.engineIn p .collective (endLocal k.dest)

/-- Collective data of a member: one chunk of its bytes, or its packet totals; refused at any other endpoint (22 R461). -/
def State.takeCollective (s : State) (k : Packet) (p : Nat) : State :=
  if !s.collectiveHere k p then s.refusePacket p k 0x0A
  else
  match s.dataFor k p with
  | none => s
  | some (n, c) =>
    let rank := c.members.idxOf (endNode k.src)
    if k.tag = totalsChunk then s.setCommand n { c with got := c.got.put (totalsKey rank) k.payload }
    else s.takeChunk n c rank k.tag k.payload

/-- The command for which a stipple block has come. -/
def State.blockFor (s : State) (k : Packet) (p : Nat) : Option (Nat × Command) :=
  s.collectiveFor p (endNode k.src) (Command.ofStipple k.tag)

/-- A stipple block: delivered when its CRC-32C matches, and otherwise discarded
(log entry 74: DEDUCED, unsafe). -/
def State.takeStipple (s : State) (k : Packet) (p : Nat) : State :=
  let b := k.arg % 2 ^ 32
  match s.blockFor k p with
  | none => s
  | some (n, c) =>
    let rank := c.members.idxOf (endNode k.src)
    if crc32c k.payload = k.arg / 2 ^ 32 ∧ 256 * b / Nat.max 1 (c.word 4) = rank ∧ b < c.nblocks then
      s.takeBlock n c b k.payload
    else s

/-- Whether a block of a node comes after the class-2 command that it belongs to has completed (15 R338). -/
def Part.stippleLate (k : Part) (tag node : Nat) : Bool := k.stippled.any fun x => x.1 == tag && x.2.contains node

/-- Whether packet totals of a node for a step of a group come after a class-2 command of it has completed (16 R358). -/
def Part.totalsLate (k : Part) (step group node : Nat) : Bool :=
  k.stippled.any fun x => x.1 == stippleTag x.2 step && x.2.contains node && groupNumber x.2 == group

/-! ## Error replies (22 R461, 16 R467) -/

/-- A channel log that outgrows the free part of the reserve ends its CUT (16 R467). -/
def State.checkLog (s : State) (p : Nat) : State :=
  let k := s.part p
  if k.proof.taken && decide (k.reserve.length * 65536 < k.reserveUsed) then s.failCut p 8 k.proof.log.length else s

/-- A collective whose peer is refused or unreachable ends (18 R397, 22 R461). -/
def State.peerLost (s : State) (n : Nat) (c : Command) : State :=
  s.setCommand n { c with sq := c.sq.filter (·.place.isSome), stop := some (0, 8, 0) }

/-- An error reply ends its request (22 R461). -/
def State.takeError (s : State) (k : Packet) (p : Nat) : State :=
  let code := bitsOf k.arg 63 56
  let rtype := bitsOf k.arg 55 48
  let value := BitVec.ofNat 64 (leNat (k.payload.take 8))
  if rtype = 3 ∨ rtype = 5 ∨ rtype = 7 ∨ rtype = 9 then
    match s.requestOf k rtype with
    | none => s.count p ctrErrreply
    | some o =>
      let s := (s.dropOutstanding o).count p ctrErrreply
      match o.waiter with
      | some q => s.wake q (.refused code)
      | none =>
        if o.future = 0 then s else s.post o.future (.resolve o.future value (BitVec.ofNat 16 (0x1200 + code)))
  else if rtype = 1 ∨ rtype = 2 then
    match s.requestOf k rtype with
    | none => s.count p ctrMsgdrop
    | some o =>
      { s with outstanding := s.outstanding.filter (· != o) }.messageAnswer p o.future k.src code
  else if rtype = 0x10 then
    let s := s.count p ctrErrreply
    match s.collectiveFor p (endNode k.src) (Command.ofStep (value.toNat % 2 ^ 32) (value.toNat / 2 ^ 32)) with
    | some (n, c) => s.peerLost n c
    | none => s
  else if rtype = 0x12 ∧ k.tag = (s.part p).proof.serial % 2 ^ 32 then
    s.failCut p 8 (value.toNat - (s.part p).proof.imgBase)
  else s

/-! ## Packets that are taken from a gateway, or that a cut held (16 R354) -/

/-- Whether what a packet needs at its target is there: room in a receive queue, the interface of the partition, the command that
runs its step. Until then it stays where it is. -/
def State.packetReady (s : State) (p die : Nat) (k : Packet) : Bool :=
  match k.ptype with
  | 1 | 2 => (s.takeMessage k p).isSome
  | 3 | 5 | 7 => !s.fabricWaits p die k
  | 9 => !s.fdecWaits (BitVec.ofNat 64 k.arg)
  | 10 => s.answerReady k
  | 0x10 =>
    (s.dataFor k p).isSome || !s.collectiveHere k p
      || (k.tag == totalsChunk && (s.part p).totalsLate (k.arg % 2 ^ 32) (k.arg / 2 ^ 32) (endNode k.src))
  | 0x11 => (s.blockFor k p).isSome || (s.part p).stippleLate k.tag (endNode k.src)
  | _ => true

/-- A packet is taken by its partition, through a gateway of a die. -/
def State.takePacket (s : State) (p die : Nat) (k : Packet) : State :=
  let s := s.checkLog p
  match k.ptype with
  | 1 | 2 => (s.takeMessage k p).getD s
  | 3 => s.takeRead k p die
  | 4 => s.takeReply k 3
  | 5 => s.takeWrite k p die
  | 6 => s.takeAck k p
  | 7 => s.takeAtomic k p die
  | 8 => s.takeReply k 7
  | 9 => s.futureAt p k
  | 10 => s.answered k
  | 0x10 => s.takeCollective k p
  | 0x11 => s.takeStipple k p
  | 0x12 => s.refusePacket p k 0x0A
  | 0x20 => s.takeError k p
  | _ => s

/-- The die of the gateway at which a packet waits (01 R25). -/
def State.gateDie (s : State) (k : Packet) : Nat := ((s.gateOf k).map (· / 8)).getD controlDie

/-- Whether a packet stays at its gateway: its partition is there to take it, and what it needs is not. -/
def State.packetStays (s : State) (k : Packet) : Bool :=
  match s.partOfJob k.job with
  | none => false
  | some p =>
    endNode k.dest == s.pkg.node && !(s.part p).ending && k.pgen == (s.part p).pgen && !s.holdsPacket p k
      && !s.packetReady p (s.gateDie k) k

/-- A packet of a type that has arrived at a gateway: refused, held, taken, or left there. -/
def State.gateEvent (s : State) (ptype : Nat) (k : Packet) : Out :=
  .next (if k.ptype ≠ ptype ∨ s.packetStays k then s
    else s.fromGate k fun s' => s'.admitPacket k fun s' p => s'.takePacket p (s.gateDie k) k)

/-- ACTIVE_MESSAGE. -/
def execActiveMessage (k : Packet) (s : State) : Out := s.gateEvent 1 k

/-- CODE_CARRYING_MESSAGE. -/
def execCodeCarryingMessage (k : Packet) (s : State) : Out := s.gateEvent 2 k

/-- READ_REQUEST. -/
def execReadRequest (k : Packet) (s : State) : Out := s.gateEvent 3 k

/-- READ_REPLY. -/
def execReadReply (k : Packet) (s : State) : Out := s.gateEvent 4 k

/-- WRITE. -/
def execWrite (k : Packet) (s : State) : Out := s.gateEvent 5 k

/-- WRITE_ACKNOWLEDGEMENT. -/
def execWriteAcknowledgement (k : Packet) (s : State) : Out := s.gateEvent 6 k

/-- ATOMIC. -/
def execAtomic (k : Packet) (s : State) : Out := s.gateEvent 7 k

/-- ATOMIC_REPLY. -/
def execAtomicReply (k : Packet) (s : State) : Out := s.gateEvent 8 k

/-- COLLECTIVE_DATA: it waits while no command of its step runs here. -/
def execCollectiveData (k : Packet) (s : State) : Out := s.gateEvent 0x10 k

/-- STIPPLE_BLOCK: it waits for its command to start, and one that comes after the command has completed is discarded. -/
def execStippleBlock (k : Packet) (s : State) : Out := s.gateEvent 0x11 k

/-- ERROR_REPLY. -/
def execErrorReply (k : Packet) (s : State) : Out := s.gateEvent 0x20 k

/-- A packet that a cut held is held no more. -/
def State.dropHeld (s : State) (p : Nat) (k : Packet) : State :=
  let part := s.part p
  s.setPart p { part with proof := { part.proof with held := part.proof.held.erase k } }

/-- Consume held packets of a partition in arrival order. One that what it needs keeps waiting stays, and with it those, as `back`
lists them, that must not overtake it (15 R332). -/
def State.takeHeld (s : State) (p : Nat) (back : List Packet) : List Packet → State
  | [] => s
  | k :: rest =>
    if s.packetReady p controlDie k && !back.any (packetFollows k) then
      State.takeHeld (((s.dropHeld p k).arriving p k).takePacket p controlDie k) p back rest
    else s.takeHeld p (k :: back) rest

/-- Consume the packets that a cut of a partition held (16 R354). -/
def State.consumeHeld (s : State) (p : Nat) : State := s.takeHeld p [] (s.part p).proof.held

/-! ## Fences and management (22 R462, 15 R328) -/

/-- A fence of a partition under teardown returns; another node's is forwarded (22 R462). -/
def State.takeFence (s : State) (k : Packet) : State :=
  match s.partOfJob k.job with
  | some p =>
    let part := s.part p
    if part.ending && k.arg == part.pgen && part.fences != 0 then
      s.setPart p { part with fences := part.fences - 1, fencedAt := s.now }
    else s
  | none => s.emit k

/-- PARTITION_FENCE. -/
def execPartitionFence (k : Packet) (s : State) : Out :=
  .next (if k.ptype = 0x21 then s.fromGate k fun s => s.takeFence k else s)

/-- MANAGEMENT: a class-3 packet reaches Ramzu (15 R328). -/
def execManagement (k : Packet) (s : State) : Out :=
  .next (if k.ptype = 0x30 ∧ k.cls = 3 ∧ endNode k.dest = s.pkg.node ∧ endLocal k.dest = 0x7FFF then
    s.fromGate k fun s => { s with pkg := { s.pkg with mgmtIn := s.pkg.mgmtIn ++ [k] } } else s)

end Sys2Proof.Machine
end

