-- ==== Sys2Proof/Machine/Engines.lean ====
section
/-!
DEFINITION. The engines' commands: COPY, COPYR, GATHER, ADDV, ALLGATHER, ALLREDUCE and CUT, their completion, and the
sealed checkpoint (spec/12 R305 to R310, spec/15 R338 to R341, spec/16 R350 to R361, R467, spec/18 R397 to R399, spec/20
R432 to R434).
-/

namespace Sys2Proof.Machine

/-! ## COPY and COPYR (12 R307; 20 R433) -/

/-- Whether the stores of a block of a command have performed. -/
def Command.blockDone (c : Command) (b : Nat) : Bool := c.done.contains b && !c.sq.any (·.unit == b)

/-- A step on a 256-byte block: part `sub` of its source is loaded, or, when all have been, both stores of 128 bytes issue, so
that an error leaves the block as it was (20 R433). -/
def State.copyBlock (s : State) (n : Nat) (c : Command) (b sub src dst : Nat) (fromAtom toAtom : Bool) : State :=
  let u := partUnit fromAtom
  let parts := 256 / u
  if sub < parts then
    if (c.got.find (16 * b + sub)).isSome then s
    else
      match s.engFetch c (16 * b + sub) (src + u * sub) u (some fromAtom) with
      | .error e => s.haltCommand n c e b
      | .ok (s, c) => s.setCommand n c
  else if c.hasAll (16 * b) parts then
    let bs := c.gathered (16 * b) parts
    let c' := { c.forgets (16 * b) 16 with done := b :: c.done }
    match issueAll toAtom [(b, dst, bs.take 128), (b, dst + 128, bs.drop 128)] s c' with
    | .error (_, e) => s.haltCommand n c e b
    | .ok (s, c') => s.setCommand n c'
  else s

/-- Whether a COPY may work on a block: the stores to the page eight before its own have performed, and neither a failure nor a
cancel keeps its page from being begun (12 R292, R307; 20 R433). -/
def Command.mayCopy (c : Command) (b : Nat) : Bool :=
  let k := c.pageOf b
  !c.done.contains b && (c.stop.map fun x => decide (b < x.1)).getD true && (!c.cancelled || decide (k < c.pos))
    && (List.range (c.pageStart (k - 7))).all c.blockDone

/-- A step of a COPY: `e` chooses the block and what is done on it. -/
def State.copyStep (s : State) (n : Nat) (c : Command) (e : Nat) : State :=
  let b := e / 17
  let total := c.word 2 / 256
  if total ≤ b then
    if (List.range total).all c.blockDone then s.finishCommand n c 0 (c.word 2) else s
  else if c.mayCopy b then
    s.copyBlock n { c with pos := Nat.max c.pos (c.pageOf b + 1) } b (e % 17) (c.word 0 + 256 * b) (c.word 1 + 256 * b)
      (c.atom 0) (c.atom 1)
  else s

/-- Whether a COPY breaks its rule (18 R399). -/
def copyBad (c : Command) : Bool := c.word 0 % 256 != 0 || c.word 1 % 256 != 0 || c.word 2 % 256 != 0

/-- COPY: blocks of up to eight destination pages, in the order that `k` gives. -/
def execCopy (x : EngineStep) (s : State) : Out :=
  .next (s.stepCommand x.command x.choice .copier 1 copyBad fun s c e => s.copyStep x.command c e)

/-- The ring number of a COPYR. -/
def Command.ringNo (c : Command) : Nat := c.word 1 % 16

/-- The cluster of a copier. -/
def Command.copierCluster (c : Command) : Nat := c.engine - 8192

/-- A step of a COPYR on its slot: it waits for FREE ≥ 1, and advances the write side when the slot's stores have performed
(12 R307). -/
def State.copyrStep (s : State) (n : Nat) (c : Command) (e : Nat) : State :=
  let cl := c.copierCluster
  let r := (s.cluster cl).ring c.ringNo
  let size := 2 ^ r.slotsz
  let off := c.pos * size
  let b := e / 17
  let blocks := Nat.min size (c.word 2 - off) / 256
  if c.stop.isSome then s
  else if c.word 2 ≤ off then s.finishCommand n c 0 c.pos
  else if r.free = 0 ∨ (c.cancelled ∧ c.done.isEmpty ∧ c.got.isEmpty) then s
  else if blocks ≤ b then
    if (List.range blocks).all c.blockDone then
      (s.advanceRing cl c.ringNo .free 1).setCommand n { c with pos := c.pos + 1, done := [] }
    else s
  else if c.done.contains b then s
  else
    s.copyBlock n c b (e % 17) (c.word 0 + off + 256 * b) (ringAddr cl r .free 0 0 + 256 * b) (c.atom 0) false

/-- Whether a COPYR breaks its rule (18 R399). -/
def State.copyrBad (s : State) (c : Command) : Bool :=
  let r := (s.cluster c.copierCluster).ring c.ringNo
  c.word 0 % 256 != 0 || c.word 2 % 256 != 0 || c.word 1 / 16 != 0 || !r.en || decide (r.slotsz < 8)

/-- COPYR. -/
def execCopyr (x : EngineStep) (s : State) : Out :=
  .next (s.stepCommand x.command x.choice .copier 2 s.copyrBad fun s c e => s.copyrStep x.command c e)

/-! ## GATHER (12 R308) -/

/-- The check of a gathered address against the issuer's domain (12 R308; 18 R397). -/
def State.gatherCheck (s : State) (c : Command) (va : Nat) : Option EngStop :=
  match nameOf va with
  | .tile cl _ => if s.ownsCluster c.part cl then none else some .prot
  | .translated =>
    match regionFor s c.part c.die c.dom va with
    | .ok (some (_, _, r)) => if !r.rd then some .prot else if r.atom then some .atomattr else none
    | .error .waits => some .waits
    | .error (.poisoned _ _) => some .poisoned
    | _ => some .prot
  | _ => some .prot

/-- The key of what a GATHER has loaded for an element: its index, and behind it the element's 32-byte words, a word that has been
stored being empty. -/
def elementKey (i : Nat) : Nat := 256 * i

/-- The address of word `q` of an element, once its index has bound. -/
def Command.elementAt (c : Command) (i q : Nat) : Option Nat :=
  (c.got.find (elementKey i)).map fun k => (c.word 1 + leNat k * c.word 3 + 32 * q) % 2 ^ 64

/-- Whether the store of a word of an element has issued. -/
def Command.wordStored (c : Command) (i q : Nat) : Bool := c.got.find (elementKey i + 1 + q) == some []

/-- The load of word `q` of an element, after the store of the word before it, checked when its address is formed (12 R308). -/
def State.gatherLoad (s : State) (n : Nat) (c : Command) (i q : Nat) : State :=
  match c.elementAt i q, (c.got.find (elementKey i + 1 + q)).isNone && (q == 0 || c.wordStored i (q - 1)) with
  | some va, true =>
    match s.gatherCheck c va with
    | some e => s.haltCommand n c e i
    | none =>
      match s.engFetch c (elementKey i + 1 + q) va 32 (some false) with
      | .error e => s.haltCommand n c e i
      | .ok (s, c) => s.setCommand n c
  | _, _ => s

/-- The store of word `q` of an element, once it has been loaded; with the last of them the element is done (12 R308). -/
def State.gatherStore (s : State) (n : Nat) (c : Command) (i q : Nat) : State :=
  match c.got.find (elementKey i + 1 + q) with
  | some (b :: bs) =>
    let c' := if 32 * (q + 1) < c.word 3 then { c with got := c.got.put (elementKey i + 1 + q) [] }
      else { c.forgets (elementKey i) 256 with done := i :: c.done }
    match s.engIssue c' i (c.word 4 + i * c.word 3 + 32 * q) (b :: bs) (c.atom 1) with
    | .error e => s.haltCommand n c e i
    | .ok (s, c') => s.setCommand n c'
  | _ => s

/-- A step of a GATHER: `e` chooses the element and what is done on it. -/
def State.gatherStep (s : State) (n : Nat) (c : Command) (e : Nat) : State :=
  let i := e / 257
  let sub := e % 257
  let begun := c.got.any fun x => x.1 / 256 == i
  if c.word 2 ≤ i then
    if c.word 2 ≤ c.done.length && c.sq.isEmpty then s.finishCommand n c 0 (c.word 2) else s
  else if c.stop.isSome ∨ c.done.contains i ∨ (c.cancelled ∧ !begun) then s
  else if sub = 0 then
    if (c.got.find (elementKey i)).isSome then s
    else
      match s.engFetch c (elementKey i) (c.word 0 + 4 * i) 4 (some (c.atom 0)) with
      | .error e => s.haltCommand n c e i
      | .ok (s, c) => s.setCommand n c
  else if c.word 3 / 32 ≤ (sub - 1) / 2 then s
  else if sub % 2 = 1 then s.gatherLoad n c i (sub / 2)
  else s.gatherStore n c i (sub / 2 - 1)

/-- Whether a GATHER breaks its rule (18 R399). -/
def gatherBad (c : Command) : Bool :=
  let e := c.word 3
  c.word 0 % 4 != 0 || c.word 1 % 64 != 0 || c.word 4 % 64 != 0 || decide (e < 64) || decide (4096 < e) || e % 64 != 0

/-- GATHER: its elements in the order that `e` gives. -/
def execGather (n e : Nat) (s : State) : Out := .next (s.stepCommand n e .gather 1 gatherBad fun s c e => s.gatherStep n c e)

/-! ## ADDV (12 R309) -/

/-- The place of an ADDV's element at its ATOM unit (18 R397). -/
def State.addPlace (s : State) (c : Command) (va : Nat) : Except EngStop Nat :=
  if s.hostWaits c.part c.die (lineOf va) then .error .waits
  else if (s.part c.part).sealedAt va then .error .sealed
  else
    match translate s c.part c.die (lineOf va) true with
    | .error r => .error (.refused r true va)
    | .ok g =>
      if !g.atom then .error .atomattr
      else
        match g.allows true true with
        | .error r => .error (.refused r true va)
        | .ok g => if s.isPoisoned (g.place va) then .error .poisoned else .ok (g.place va)

/-- A step of an ADDV: the load of its next element, or that element's aadd with G = 1 at the ATOM unit. -/
def State.addStep (s : State) (n : Nat) (c : Command) : State :=
  let i := c.pos
  if c.stop.isSome then s
  else if c.word 2 ≤ i then s.finishCommand n c 0 (c.word 2)
  else
    match c.got.find 0 with
    | none =>
      if c.cancelled then s
      else
        match s.engFetch c 0 (c.word 0 + 8 * i) 8 (some (c.atom 0)) with
        | .error e => s.haltCommand n c e i
        | .ok (s, c) => s.setCommand n c
    | some bs =>
      let va := c.word 1 + 8 * i
      let s := s.engWalk c.part c.die va true (some true)
      match s.addPlace c va with
      | .error e => s.haltCommand n c e i
      | .ok pa =>
        let new := BitVec.ofNat 64 (leNat (s.load pa 8)) + BitVec.ofNat 64 (leNat bs)
        ((s.storeAt c.part pa (leBytes 8 new.toNat)).wakeWatch pa).setCommand n { c with pos := i + 1, got := [] }

/-- Whether an ADDV breaks its rule (18 R399). -/
def addvBad (c : Command) : Bool := c.word 0 % 8 != 0 || c.word 1 % 8 != 0

/-- ADDV: its next step. -/
def execAddv (n : Nat) (s : State) : Out := .next (s.stepCommand n 0 .atomicUnit 1 addvBad fun s c _ => s.addStep n c)

/-! ## The cut (16 R352 to R356) -/

/-- 64 KiB granules of a partition's HBM. -/
def Part.units (k : Part) : Nat := k.memSize / 65536

/-- Granules of a proof reserve of `pct` percent (16 R355). -/
def Part.reserveUnits (k : Part) (pct : Nat) : Nat := (pct * k.units + 99) / 100

/-- The granules of a partition below its reserve that have been written, with their contents (16 R352, R355). -/
def State.imageOf (s : State) (p : Nat) : List (Nat × List Byte) :=
  let k := s.part p
  (List.range (k.units - k.reserve.length)).filterMap fun g =>
    match k.stage2[g]? with
    | some pa => if s.touched.contains (pa / 65536) then some (g, s.load pa 65536) else none
    | none => none

/-- Every dirty copy of a partition is forwarded (16 R352). -/
def State.forwardAll (s : State) (p : Nat) : State :=
  ((s.part p).copies.filter (·.dirty != 0)).foldl (fun s c => s.forward p c.die c.line) s

/-- The cut step of a partition: the image is fixed as the homes hold it after the forwards, and its granules are marked; held
packets are then consumed. -/
def State.takeCut (s : State) (p : Nat) : State :=
  let s := (s.forwardAll p).flushHomes p false fun _ => true
  let part := s.part p
  let image := s.imageOf p
  let s := s.setPart p { part with proof := { part.proof with
    taken := true, takenAt := s.now, image := image, marked := image.map (·.1), logOpen := true
    injCut := part.proof.injected } }
  s.consumeHeld p

/-- STEPDONE has reached `step` at a group: what came early and is so no more is forgotten, and a cut armed for that step of the
tagging group is taken (16 R352, R358). -/
def State.stepTaken (s : State) (p group step : Nat) : State :=
  let k := s.part p
  let q := k.proof
  let s := if k.tagging = some group then
      s.setPart p { k with proof := { q with early := q.early.filter fun e => tagLater e.1 (step + 65535) } }
    else s
  if q.armed.isSome && !q.taken && q.group == group && q.step == step then s.takeCut p else s

/-- INJ and ARR that a step of the tagging group carries, as 16 bytes (16 R358; log entry 28: DESIGN CHOICE, unsafe). -/
def Proof.totals (q : Proof) : List Byte :=
  leBytes 8 q.injCut ++ leBytes 8 ((q.arrived + 2 ^ 64 - q.late) % 2 ^ 64)

/-- Whether a collective command carries the totals of an open log. -/
def State.carriesTotals (s : State) (c : Command) : Bool :=
  let q := (s.part c.part).proof
  q.taken && q.logOpen && q.group == c.word 0

/-! ## The group of a collective (12 R310, 15 R340) -/

/-- The key of a quarter of the lines of descriptors that a command reads. -/
def descKey : Nat := 2 ^ 63

/-- A part of a line of descriptors is read: the whole line, or on an ATOM page the missing quarter that `j` names (05 R118). -/
def State.descPart (s : State) (c : Command) (line va j : Nat) : Except EngStop (State × Command) :=
  let key := descKey + 4 * line
  if atomPage s c.part c.die va then
    let missing := (List.range 4).filter fun i => (c.got.find (key + i)).isNone
    let i := (missing[j % missing.length]?).getD 0
    s.engFetch c (key + i) (va + 16 * i) 16 none
  else
    (s.engLoad c.part c.die va 64 none c.sq).map fun x =>
      (x.1, { c with got := (List.range 4).foldl (fun m i => m.put (key + i) ((x.2.drop (16 * i)).take 16)) c.got })

/-- The words of a line of descriptors, once it has been read. -/
def Command.descWords (c : Command) (line : Nat) : List Word :=
  let bs := c.gathered (descKey + 4 * line) 4
  (List.range 8).map fun i => BitVec.ofNat 64 (leNat ((bs.drop (8 * i)).take 8))

/-- Word `i` of a descriptor. -/
def descWord (w : List Word) (i : Nat) : Word := (w[i]?).getD 0

/-- SIZE of a group descriptor. -/
def groupSize (w : List Word) : Nat := wbits (descWord w 0) 63 46

/-- RANK of a group descriptor. -/
def groupRank (w : List Word) : Nat := wbits (descWord w 0) 44 28

/-- PROOF of a group descriptor. -/
def groupProof (w : List Word) : Bool := wbits (descWord w 0) 27 27 == 1

/-- STEPDONE of a group descriptor. -/
def groupDone (w : List Word) : Nat := wbits (descWord w 1) 31 0

/-- MEMBERS of a group descriptor. -/
def groupMembers (w : List Word) : Nat := wbits (descWord w 2) 55 0

/-- Whether a reserved field of a group descriptor is not zero (00 R12, 15 R340). -/
def groupReserved (w : List Word) : Bool :=
  wbits (descWord w 0) 45 45 != 0 || wbits (descWord w 0) 26 0 != 0 || wbits (descWord w 1) 63 32 != 0
    || wbits (descWord w 2) 63 56 != 0 || (w.drop 3).any (· != 0)

/-- The ATOM right of the region that gives W on a whole range of the issuer's domain, or of the partition's tile stores; PROT
where none does (12 R305, R310). -/
def State.rangeWritable (s : State) (c : Command) (va len : Nat) : Except EngStop Bool :=
  if len = 0 then .ok false
  else
    match nameOf va with
    | .tile _ _ => if (s.tileRangeFault c.part va len).isNone then .ok false else .error .prot
    | .translated =>
      match regionFor s c.part c.die c.dom va with
      | .ok (some (b, l, r)) => if r.w && decide (va + len ≤ b + 2 ^ l) then .ok r.atom else .error .prot
      | .error .waits => .error .waits
      | .error (.poisoned _ _) => .error .poisoned
      | _ => .error .prot
    | _ => .error .prot

/-- Bytes of the mask region of a class-2 command with a number of blocks (15 R339). -/
def maskBytes (blocks : Nat) : Nat := (blocks + 511) / 512 * 64

/-- The ATOM rights of the destination and the mask of an ALLGATHER of `size` members. -/
def State.gatherRights (s : State) (c : Command) (size : Nat) : Except EngStop (Bool × Bool) :=
  match s.rangeWritable c (c.word 3) (size * c.word 4) with
  | .error e => .error e
  | .ok dst =>
    if c.cls = 2 then (s.rangeWritable c (c.word 5) (maskBytes ((size * c.word 4 + 255) / 256))).map fun m => (dst, m)
    else .ok (dst, false)

/-- The tagging group of a partition becomes known (15 R340). -/
def State.noteTagging (s : State) (p va : Nat) (proof : Bool) : State :=
  let k := s.part p
  if proof && k.tagging.isNone then s.setPart p { k with tagging := some va } else s

/-- A collective reads its group's descriptor, a part at a time, and then, where it gathers, checks the destination and the mask: a
group that breaks a rule rejects it (log entry 75: DEDUCED, unsafe). Nothing has been written before. -/
def State.groupStep (s : State) (n : Nat) (c : Command) (j : Nat) : State :=
  if !c.hasAll descKey 4 then
    match s.descPart c 0 (c.word 0) j with
    | .error e => s.haltCommand n c e besideUnit
    | .ok (s, c) => s.setCommand n c
  else
    let w := c.descWords 0
    let c := c.forgets descKey 4
    let size := groupSize w
    if groupReserved w ∨ c.word 1 ≠ (groupDone w + 1) % 2 ^ 32 ∨ size = 0 ∨ 131072 < size ∨ size ≤ groupRank w then
      s.badCommand n c
    else
      let s := s.noteTagging c.part (c.word 0) (groupProof w)
      let go (s : State) (c : Command) : State :=
        s.setCommand n { c with
          pos := 1, rank := groupRank w, got := c.got.put memberKey (leBytes 8 (groupMembers w) ++ leBytes 8 size) }
      if c.op = 1 then
        match s.gatherRights c size with
        | .error e => s.haltCommand n c e besideUnit
        | .ok (d, m) => go s { c with atoms := [c.atom 0, d, m] }
      else go s c

/-- The list of a group's members is read, a part at a time, as `j` chooses; a word with another bit set rejects the command (00
R12, 15 R340). -/
def State.memberStep (s : State) (n : Nat) (c : Command) (j : Nat) : State :=
  let bs := (c.got.find memberKey).getD []
  let va := leNat (bs.take 8)
  let size := leNat (bs.drop 8)
  let parts := partCount 16 va (4 * size)
  if j < parts then
    let x := partAt 16 va (4 * size) j
    match s.engFetch c (memberKey + 1 + j) x.1 x.2 none with
    | .error e => s.haltCommand n c e besideUnit
    | .ok (s, c) => s.setCommand n c
  else if c.hasAll (memberKey + 1) parts then
    let list := c.gathered (memberKey + 1) parts
    let words := (List.range size).map fun i => leNat ((list.drop (4 * i)).take 4)
    if words.any fun w => decide (2 ^ 17 ≤ w) then s.badCommand n c
    else s.setCommand n { c.forgets memberKey (parts + 1) with members := words, pos := 2 }
  else s

/-! ## Exchanging data (12 R310; 15 R330, R338; 16 R358) -/

/-- Send a packet of a collective to a member. -/
def State.sendMember (s : State) (c : Command) (node ptype cls tag arg : Nat) (payload : List Byte) : State :=
  s.emit (s.packet c.part ptype (endpoint s.pkg.node c.engine) (endpoint node c.engine) cls 0 0 payload.length tag arg payload)

/-- A chunk padded to the least payload of a collective data packet (15 R330). -/
def padChunk (bs : List Byte) : List Byte := bs ++ List.replicate (256 - bs.length) 0

/-- ARG of a collective data packet: the group and the step (15 R330; log entry 101: DESIGN CHOICE, safe). -/
def Command.dataArg (c : Command) : Nat := groupNumber c.members * 2 ^ 32 + c.word 1 % 2 ^ 32

/-- Send this member's bytes to another: in chunks, or in class 2 in blocks with their CRC-32C and the TAG of the command (log
entries 28 and 117: DESIGN CHOICE, unsafe). -/
def State.sendShare (s : State) (c : Command) (bs : List Byte) (node : Nat) : State :=
  if c.cls = 2 then
    (List.range (c.word 4 / 256)).foldl (fun s b =>
      let blk := (bs.drop (256 * b)).take 256
      s.sendMember c node 0x11 2 c.stippleTag (crc32c blk * 2 ^ 32 + (c.rank * (c.word 4 / 256) + b)) blk) s
  else
    (List.range c.chunks).foldl (fun s j =>
      s.sendMember c node 0x10 c.cls j c.dataArg (padChunk ((bs.drop (chunkBytes * j)).take chunkBytes))) s

/-- Send the packet totals of a step of the tagging group to a member, in the class of the command, and beside a class-2 command in
class 0 (16 R358; log entry 28: DESIGN CHOICE, unsafe). -/
def State.sendTotals (s : State) (c : Command) (node : Nat) : State :=
  s.sendMember c node 0x10 (c.cls % 2) totalsChunk c.dataArg (padChunk (s.part c.part).proof.totals)

/-- This member's own bytes are delivered locally. -/
def State.deliverOwn (s : State) (n : Nat) (c : Command) (bs : List Byte) : State :=
  let go (s : State) (f : State → Command → State) : State :=
    match s.commands.find n with
    | some c => if c.stop.isSome then s else f s c
    | none => s
  if c.cls = 2 then
    (List.range (c.word 4 / 256)).foldl (fun s b =>
      go s fun s c => s.takeBlock n c (c.rank * (c.word 4 / 256) + b) ((bs.drop (256 * b)).take 256)) s
  else
    (List.range c.chunks).foldl (fun s j =>
      go s fun s c => s.takeChunk n c c.rank j ((bs.drop (chunkBytes * j)).take chunkBytes)) s

/-- A step of the tagging group in class 2 ends a cut that is armed for it (16 R351, R467). -/
def State.classCut (s : State) (c : Command) : State :=
  let q := (s.part c.part).proof
  if c.op = 1 ∧ c.cls = 2 ∧ q.armed.isSome ∧ !q.taken ∧ q.group = c.word 0 ∧ q.step = c.word 1 then s.failCut c.part 8 0
  else s

/-- This member contributes: its bytes and its totals go to the others, and its bytes to its own destination. -/
def State.contribute (s : State) (n : Nat) (c : Command) (bs : List Byte) : State :=
  let s := s.classCut c
  let others := c.members.filter (· != s.pkg.node)
  let totals := (s.part c.part).tagging == some (c.word 0)
  let c := { c with
    pos := 3
    got := if totals then c.got.put (totalsKey c.rank) (s.part c.part).proof.totals else c.got }
  let s := others.foldl (fun s m => s.sendShare c bs m) s
  let s := if totals then others.foldl (fun s m => s.sendTotals c m) s else s
  let k := s.part c.part
  let s := s.setPart c.part { k with stippled := k.stippled.filter (· != (c.stippleTag, c.members)) }
  (s.setCommand n c).deliverOwn n c bs

/-- This member's bytes are read, a part at a time, as `j` chooses; then it contributes. -/
def State.sourceStep (s : State) (n : Nat) (c : Command) (j : Nat) : State :=
  let u := partUnit (c.atom 0)
  let parts := partCount u (c.word 2) c.share
  if j < parts then
    let x := partAt u (c.word 2) c.share j
    match s.engFetch c (sourceKey + j) x.1 x.2 (some (c.atom 0)) with
    | .error e => s.haltCommand n c e besideUnit
    | .ok (s, c) => s.setCommand n c
  else if c.hasAll sourceKey parts then s.contribute n (c.forgets sourceKey parts) (c.gathered sourceKey parts)
  else s

/-! ## Completing a collective -/

/-- Whether every member's totals are there, for which a step waits while this member's log is open: each member sends them in every
step of the tagging group, whatever has become of its own log (16 R358). -/
def State.totalsHere (s : State) (c : Command) : Bool :=
  !s.carriesTotals c || (List.range c.members.length).all fun r => (c.got.find (totalsKey r)).isSome

/-- Whether every chunk of every member has arrived, with the totals that the step waits for. -/
def State.allArrived (s : State) (c : Command) : Bool :=
  s.totalsHere c
    && (List.range c.members.length).all fun r => (List.range c.chunks).all fun j => c.done.contains (chunkKey r j)

/-- The log of a cut closes at the first later step whose sums are equal (16 R358). -/
def State.closeLog (s : State) (c : Command) : State :=
  let all : List (List Byte) := (List.range c.members.length).filterMap fun r => c.got.find (totalsKey r)
  if s.carriesTotals c && all.length == c.members.length then
    let sum (f : List Byte → Nat) : Nat := (all.map f).foldl (· + ·) 0
    if sum (fun bs => leNat (bs.take 8)) % 2 ^ 64 = sum (fun bs => leNat ((bs.drop 8).take 8)) % 2 ^ 64 then
      let k := s.part c.part
      s.setPart c.part { k with proof := { k.proof with logOpen := false } }
    else s
  else s

/-- STEPDONE ← S as a G = 1 store, which no contour register checks (09 R240, 15 R340). -/
def State.storeDone (s : State) (c : Command) : Except EngStop State :=
  let va := c.word 0 + 8
  let s := s.engWalk c.part c.die va true none
  if s.hostWaits c.part c.die (lineOf va) then .error .waits
  else if (s.part c.part).sealedAt va then .error .sealed
  else
    match engPage s c.part c.die va true none with
    | .error r => .error (.refused r true va)
    | .ok g =>
      if g.atom then .ok ((s.storeAt c.part (g.place va) (leBytes 4 (c.word 1))).wakeWatch (g.place va))
      else
        match s.performHome c.part c.die va 4 true (fun _ => some (leBytes 4 (c.word 1))) with
        | .error r => .error (.refused r true va)
        | .ok (s, _) => .ok s

/-- STEPDONE, the log of an earlier cut, a cut armed for this step, and the command's end (15 R340; 16 R352, R358). -/
def State.completeStep (s : State) (n : Nat) (c : Command) (value : Nat) : State :=
  match s.storeDone c with
  | .error e => s.haltCommand n c e besideUnit
  | .ok s => ((s.closeLog c).finishCommand n c 0 value).stepTaken c.part (c.word 0) (c.word 1)

/-- The mask region of a class-2 command (15 R339). -/
def Command.mask (c : Command) : List Byte :=
  (List.range (maskBytes c.nblocks)).map fun i =>
    BitVec.ofNat 8 (((List.range 8).map fun j => if c.blocks.contains (8 * i + j) then 2 ^ j else 0).foldl (· + ·) 0)

/-- A class-2 command takes no more blocks: the stores of zeros for the absent ones, counted STIPDROP, and of the mask issue
(15 R338, R339; 22 R464). -/
def State.closeStipple (s : State) (n : Nat) (c : Command) : State :=
  let absent := (List.range c.nblocks).filter fun b => !c.blocks.contains b
  let zeros := absent.flatMap fun b => deliveries (c.word 3) (256 * b) (List.replicate 256 0)
  let mask := (partsOf 64 (c.word 5) c.mask).map fun q => (besideUnit, q.1, q.2)
  match issueAll (c.atom 1) zeros s { c with closing := true } with
  | .error (unit, e) => s.haltCommand n c e unit
  | .ok (s1, c1) =>
    match issueAll (c.atom 2) mask s1 c1 with
    | .error (unit, e) => s.haltCommand n c e unit
    | .ok (s2, c2) => (absent.foldl (fun s _ => s.count c.part ctrStipdrop) s2).setCommand n c2

/-- A step of an ALLGATHER that has contributed: it closes when everything has arrived, and completes when its stores have
performed. One of class 2 closes without its totals, and waits for them then. -/
def State.allgatherStep (s : State) (n : Nat) (c : Command) : State :=
  if c.closing then
    if c.sq.isEmpty && s.totalsHere c then s.completeStep n c (if c.cls = 2 then c.blocks.length else c.nblocks) else s
  else if c.cls = 2 then
    if c.nblocks ≤ c.blocks.length then s.closeStipple n c else s
  else if s.allArrived c then s.setCommand n { c with closing := true }
  else s

/-- A step of a collective: its descriptor, its members, its contribution, and its end, as `run` gives that. -/
def State.collectiveStep (s : State) (n : Nat) (c : Command) (e : Nat) (run : State → Command → State) : State :=
  if c.stop.isSome ∨ c.cancelled then s
  else if c.pos = 0 then s.groupStep n c e
  else if c.pos = 1 then s.memberStep n c e
  else if c.pos = 2 then s.sourceStep n c e
  else run s c

/-- Whether an ALLGATHER breaks its rule (18 R399). -/
def allgatherBad (c : Command) : Bool :=
  c.word 0 % 64 != 0 || c.word 3 % 64 != 0 || c.word 5 % 64 != 0 || (c.cls == 2 && c.word 4 % 256 != 0) || c.cls == 3
    || c.word 6 / 4 % 2 ^ 30 != 0

/-- ALLGATHER. -/
def execAllgather (x : EngineStep) (s : State) : Out :=
  let n := x.command
  .next (s.stepCommand n x.choice .collective 1 allgatherBad fun s c e => s.collectiveStep n c e fun s c => s.allgatherStep n c)

/-- One element of a sum in ascending rank (12 R310). -/
def reduceElement (fmt : Nat) : List Nat → Nat
  | [] => 0
  | c :: cs =>
    cs.foldl (fun a b =>
      match floatFmt fmt with
      | some f => (f.result (Num.add (f.value a) (f.value b))).1
      | none => (a + b) % 2 ^ fmtWidth fmt) c

/-- The contribution of a member. -/
def Command.contribution (c : Command) (r : Nat) : List Byte :=
  (List.range c.chunks).flatMap fun j => (c.got.find (chunkKey r j)).getD []

/-- The destination bytes of an ALLREDUCE. -/
def Command.reduced (c : Command) : List Byte :=
  let fmt := c.word 5 % 32
  let n := reduceBytes fmt
  let parts := (List.range c.members.length).map c.contribution
  (List.range (c.word 4)).flatMap fun e =>
    leBytes n (reduceElement fmt (parts.map fun p => leNat ((p.drop (n * e)).take n)))

/-- A step of an ALLREDUCE that has contributed: its sums are stored when every contribution has arrived, and it completes when
they have performed. -/
def State.allreduceStep (s : State) (n : Nat) (c : Command) : State :=
  if c.closing then
    if c.sq.isEmpty then s.completeStep n c (c.word 4) else s
  else if s.allArrived c then s.deliverAt n c { c with closing := true } 0 c.reduced
  else s

/-- Whether an ALLREDUCE breaks its rule (18 R399). -/
def allreduceBad (c : Command) : Bool :=
  let fmt := c.word 5 % 32
  let n := reduceBytes fmt
  !([0x00, 0x14, 0x15, 0x16].contains fmt) || c.word 5 / 32 != 0 || c.word 0 % 64 != 0
    || c.word 2 % Nat.max 1 n != 0 || c.word 3 % Nat.max 1 n != 0 || decide (1 < c.cls) || c.word 6 / 4 != 0

/-- ALLREDUCE. -/
def execAllreduce (x : EngineStep) (s : State) : Out :=
  let n := x.command
  .next (s.stepCommand n x.choice .collective 2 allreduceBad fun s c e => s.collectiveStep n c e fun s c => s.allreduceStep n c)

/-- STIPPLE_TIMEOUT: a class-2 command takes no more blocks at E6[63:32] cycles after its start; its own are there. -/
def execStippleTimeout (n : Nat) (s : State) : Out :=
  match s.commands.find n with
  | some c =>
    if engineOf c.engine = some .collective ∧ c.op = 1 ∧ c.cls = 2 ∧ c.started ∧ c.finished.isNone ∧ c.stop.isNone
        ∧ !c.cancelled
        ∧ c.pos = 3 ∧ !c.closing ∧ c.startedAt + c.word 6 / 2 ^ 32 ≤ s.now then .next (s.closeStipple n c)
    else .next s
  | none => .next s

/-! ## CUT (16 R350 to R352, R467) -/

/-- A proof descriptor (16 R350). -/
structure ProofDesc where
  pct : Nat
  share : Nat
  stores : List Nat
  imgBase : Nat
  deriving DecidableEq, Repr

/-- The proof descriptor in a group's second line; none with a reserved bit or a field out of range. -/
def proofDesc (w : List Word) : Option ProofDesc :=
  let at_ (i : Nat) : Word := (w[i]?).getD 0
  let pct := wbits (at_ 0) 63 60
  let share := wbits (at_ 0) 59 54
  let n := wbits (at_ 0) 53 52 + 1
  let all := [wbits (at_ 1) 31 0, wbits (at_ 1) 63 32, wbits (at_ 2) 31 0, wbits (at_ 2) 63 32]
  if wbits (at_ 0) 51 0 = 0 ∧ 1 ≤ pct ∧ pct ≤ 8 ∧ 1 ≤ share ∧ share ≤ 32 ∧ (all.drop n).all (· == 0)
      ∧ (at_ 3).toNat % 65536 = 0 ∧ at_ 4 = 0 ∧ at_ 5 = 0 ∧ at_ 6 = 0 ∧ at_ 7 = 0 then
    some ⟨pct, share, all.take n, (at_ 3).toNat⟩
  else none

/-- A CUT that is rejected, counted PROOFREF (16 R467). -/
def State.badCut (s : State) (n : Nat) (c : Command) : State := (s.badCommand n c).count c.part ctrProofref

/-- Whether a command of a step of a group that satisfies a test runs here. -/
def State.stepRuns (s : State) (p group step : Nat) (t : Command → Bool) : Bool :=
  s.commands.any fun e =>
    engineOf e.2.engine == some .collective && e.2.part == p && e.2.started && e.2.word 0 == group && e.2.word 1 == step
      && e.2.finished.isNone && t e.2

/-- Whether an earlier CUT of a partition is outstanding: its future is not terminal (16 R351, R467). -/
def State.cutOutstanding (s : State) (p n : Nat) : Bool :=
  let f := (s.part p).proof.lastFuture
  s.commands.any (fun e => e.1 != n && engineOf e.2.engine == some .proof && e.2.part == p && e.2.started)
    || (match (s.cluster (handleCluster f)).futRef f with
      | .live e => f != 0 && e.part == p && e.state == .pending
      | _ => false)

/-- Whether a step of a group has ended in class 2 (16 R351, R467). -/
def State.stepStippled (s : State) (p group step : Nat) : Bool :=
  ((s.groupNodes p group).map fun m => (s.part p).stippled.contains (stippleTag m step, m)).getD false

/-- A CUT arms (16 R350 to R352): the reserve is set aside, the packets of its drain have a number of their own, and what has
come early is counted (R358). -/
def Part.arm (k : Part) (n group step now : Nat) (d : ProofDesc) : Part :=
  let r := k.reserveUnits d.pct
  let q := k.proof.disarmed
  let tag (e : Nat × Nat) : Bool := tagLater e.1 (step + 65535)
  { k with
    tagging := some group, reserve := (List.range r).map (k.units - r + ·)
    proof := { q with
      armed := some n, step := step, group := group, stores := d.stores, imgBase := d.imgBase, drainShare := d.share
      armedAt := now, late := ((q.early.filter tag).map (·.2)).foldl (· + ·) 0, serial := q.serial + 1 } }

/-- The Proof engine takes a CUT up, whose future is then the last one (16 R351). -/
def Part.noteCut (k : Part) (f : Word) : Part := { k with proof := { k.proof with lastFuture := f } }

/-- A CUT whose descriptors have been read arms, takes its cut, or is rejected (16 R350 to R352, R467). -/
def State.armCut (s : State) (n : Nat) (c : Command) : State :=
  let p := c.part
  let group := c.word 0
  let g := c.descWords 0
  let step := c.word 1
  let done := groupDone g
  if s.cutOutstanding p n then s.badCut n c
  else
    let s := s.setPart p ((s.part p).noteCut c.future)
    match proofDesc (c.descWords 1) with
    | none => s.badCut n c
    | some d =>
      let next := step == (done + 1) % 2 ^ 32
      let now_ := step == done && !s.stepRuns p group ((done + 1) % 2 ^ 32) fun _ => true
      if groupReserved g ∨ !groupProof g ∨ ((s.part p).tagging.map (· != group)).getD false ∨ !(next || now_) then s.badCut n c
      else
        let s := (s.setPart p ((s.part p).arm n group step s.now d)).setCommand n { c with pos := 1 }
        if (now_ && s.stepStippled p group step) || s.stepRuns p group step fun c => c.cls == 2 && c.op == 1 then s.failCut p 8 0
        else if now_ then s.takeCut p
        else s

/-- A step of a CUT before it arms: its group's two lines are read, a part at a time in an order that is free (05 R118). -/
def State.startCut (s : State) (n : Nat) (c : Command) : State :=
  if c.hasAll descKey 8 then s.armCut n c
  else
    let (w, s) := s.takeFree
    let line := if c.hasAll descKey 4 then 1 else 0
    match s.descPart c line (c.word 0 + 64 * line) w.toNat with
    | .error e => s.haltCommand n c e besideUnit
    | .ok (s, c) => s.setCommand n c

/-- CUT. -/
def execCut (n : Nat) (s : State) : Out :=
  match s.commands.find n with
  | some c =>
    if engineOf c.engine = some .proof ∧ s.mayStart n c ∧ c.word 0 % 64 ≠ 0 then
      .next (s.badCut n { c with started := true })
    else .next (s.stepCommand n 0 .proof 1 (fun _ => false) fun s c _ => if c.pos = 0 ∧ !c.cancelled then s.startCut n c else s)
  | none => .next s

/-- Cycles within which a cut is taken, and within which the model takes a storage endpoint to acknowledge (16 R467; log entry 118:
DESIGN CHOICE, unsafe). -/
def cutCycles : Nat := 2 ^ 32

/-- The image offset of a piece of the drain, by its number in the order in which the pieces are sent (16 R357). -/
def Proof.pieceOffset (q : Proof) (i : Nat) : Nat :=
  let records := 16 * (q.image.length + q.logRecords)
  let base := dataOff q.image.length q.logRecords
  if i < records then base + 65536 * (q.order[i / 16]?).getD 0 + 4096 * (i % 16)
  else if i < records + (base - 0x1000) / 4096 then 0x1000 + 4096 * (i - records)
  else 0

/-- CUT_TIMEOUT (16 R467): not taken within 2^32 control-die cycles of arming, or a drain packet that is not acknowledged, of which
VALUE names the first. -/
def execCutTimeout (p : Nat) (s : State) : Out :=
  let q := (s.part p).proof
  if q.armed.isSome ∧ !q.taken ∧ q.armedAt + cutCycles ≤ s.now then .next ((s.failCut p 8 0).consumeHeld p)
  else if q.armed.isSome ∧ q.taken ∧ q.acks < q.drained ∧ q.sentAt + cutCycles ≤ s.now then
    .next (s.failCut p 8 (q.pieceOffset q.acks))
  else .next s

/-- Whether a place is in a granule of a partition. -/
def Part.inGranule (k : Part) (gr pa : Nat) : Bool := k.granuleAt pa == some gr

/-- Whether a write of a partition to a granule stalls: a store or atomic of a thread or an engine that has not performed, or a
forward that is still to come (16 R356). -/
def State.writeStalls (s : State) (p gr : Nat) : Bool :=
  let k := s.part p
  let goes (die va : Nat) : Bool :=
    ((translate s p die (lineOf va) true).toOption.map fun g => k.inGranule gr (g.place va)).getD false
  s.threads.any (fun e => e.2.part == p && e.2.acc.any fun a =>
      a.writes && !a.hasPerformed && (a.place == .line || a.place == .atom) && goes (dieOfCore (coreOfKey e.1)) a.va)
    || s.commands.any (fun e => e.2.part == p && e.2.sq.any fun st => nameOf st.va == .translated && goes e.2.die st.va)
    || k.copies.any (fun c => c.dirty != 0 && k.inGranule gr c.pa)

/-- COPY_ON_WRITE (16 R356): a marked granule on which a write stalls is copied into the reserve, or drained before the others
when that is full, and its mark cleared. A write that performs has its granule copied in the same step. -/
def execCopyOnWrite (p gr : Nat) (s : State) : Out := .next (if s.writeStalls p gr then s.copyGranule p gr else s)

/-! ## The drain (16 R357, R359 to R361) -/

/-- The page list (16 R357). -/
def Proof.pageList (q : Proof) : List Byte := q.image.flatMap fun g => leBytes 4 g.1

/-- The tag table. -/
def State.tagTable (s : State) (p : Nat) : List Byte :=
  let q := (s.part p).proof
  (List.range (q.image.length + q.logRecords)).flatMap fun i => fillTo (s.sealedRecord p i).2 16

/-- What stands of an image between its header and its records. -/
def State.imageTables (s : State) (p : Nat) : List Byte :=
  let q := (s.part p).proof
  let n := q.image.length
  fillTo q.pageList (tagOff n - 0x1000) ++ fillTo (s.tagTable p) (dataOff n q.logRecords - tagOff n)

/-- The signed part of an image's header (16 R360). -/
def State.headerBody (s : State) (p : Nat) : List Byte :=
  let k := s.part p
  let q := k.proof
  leBytes 8 (0x5A50 * 2 ^ 48 + 2 ^ 44) ++ leBytes 8 (s.imageCounter p) ++ leBytes 4 q.step ++ leBytes 4 s.pkg.node
    ++ leBytes 2 k.job ++ leBytes 1 p ++ leBytes 5 0 ++ leBytes 8 k.units ++ leBytes 8 q.image.length
    ++ leBytes 8 q.log.length ++ leBytes 8 0 ++ fillTo k.measurement 64 ++ fillTo s.pkg.measurement 64
    ++ fillTo (Config.sha512 q.pageList) 64 ++ fillTo (Config.sha512 (s.tagTable p)) 64

/-- The header of an image. -/
def State.imageHeader (s : State) (p : Nat) : List Byte :=
  let body := s.headerBody p
  fillTo (body ++ fillTo (Config.sign s.pkg.node body) 64) 4096

/-- An image commits (16 R361): the counter, then the future. -/
def State.commitCut (s : State) (p : Nat) : State :=
  let k := s.part p
  let counter := s.imageCounter p
  match k.proof.armed with
  | none => s
  | some n =>
    let s := { s with pkg := { s.pkg with sealCounters := s.pkg.sealCounters.put k.job counter } }
    let s := s.setPart p { k with proof := k.proof.disarmed }
    match s.commands.find n with
    | some c => s.finishCommand n c 0 counter
    | none => s

/-- The next message of a restored image's log goes to its endpoint, once the partition's first launch has been accepted; it has
been counted where it first arrived (16 R362; log entry 76: DEDUCED, unsafe). -/
def State.deliverRestored (s : State) (p : Nat) : State :=
  let k := s.part p
  match k.restored with
  | m :: rest =>
    if k.launched then ((s.setPart p { k with restored := rest }).takeMessage m p).getD s else s
  | [] => s

/-- The next step of the drain of a cut that has been taken, once its log has closed: the records, then the tables; when all are
acknowledged the header; when that is, the commit (16 R357, R361; log entry 76: DEDUCED, unsafe). -/
def State.drainStep (s : State) (p : Nat) : State :=
  let q := (s.part p).proof
  let records := 16 * (q.image.length + q.logRecords)
  let pieces := records + (dataOff q.image.length q.logRecords - 0x1000) / 4096
  if q.armed.isNone || !q.taken || q.logOpen then s
  else if q.drained < records then s.drainRecord p
  else if q.drained < pieces then
    let off := 4096 * (q.drained - records)
    s.drainPacket p (0x1000 + off) (((s.imageTables p).drop off).take 4096)
  else if q.acks < pieces then s
  else if q.drained = pieces then s.drainPacket p 0 (s.imageHeader p)
  else if q.acks ≤ pieces then s
  else s.commitCut p

/-- BACKGROUND_DRAIN (16 R356, R357, R361): a step of the drain. Held packets that no cut holds back any more, and messages of a
restored image, go on before it as their receive queues empty (16 R354, R362). A partition under teardown drains nothing (22
R462). -/
def execBackgroundDrain (p : Nat) (s : State) : Out :=
  let q := (s.part p).proof
  if (s.part p).ending then .next s
  else
  let s := if q.armed.isNone || q.taken then s.consumeHeld p else s
  .next ((s.deliverRestored p).drainStep p)

/-! ## Completion (12 R292, R305, 05 R132, 18 R397) -/

/-- A cancelled CUT leaves nothing behind it. -/
def State.endCut (s : State) (n : Nat) (c : Command) : State :=
  let k := s.part c.part
  if k.proof.armed = some n then (s.setPart c.part { k with proof := k.proof.disarmed }).consumeHeld c.part else s

/-- A step towards the end of a command whose stores have performed: a line that it has written is published, for its end is a
release at .s; when none is left, it is gone and its future resolves (05 R125, R132). -/
def State.endCommand (s : State) (n : Nat) (c : Command) : State :=
  match c.lines with
  | line :: rest => (s.publish c.part c.die line false).setCommand n { c with lines := rest }
  | [] =>
    let gone := (s.endCut n c).dropCommand n c
    match c.finished with
    | some (status, value) => gone.post c.future (.resolve c.future value (BitVec.ofNat 16 status))
    | none => gone

/-- ENGINE_COMMAND_COMPLETION: of a command that has its STATUS and VALUE, or that was cancelled and has stopped (12 R292). -/
def execEngineCommandCompletion (n : Nat) (s : State) : Out :=
  match s.commands.find n with
  | none => .next s
  | some c =>
    .next (if c.sq.isEmpty ∧ (c.finished.isSome ∨ (c.cancelled ∧ c.arrived ∧ c.resting)) then s.endCommand n c else s)

end Sys2Proof.Machine
end

