-- ==== Sys2Proof/Machine/Ports.lean ====
section
/-!
DEFINITION. Edge ports: the receipt of flits, replay, retraining, key rollover and the arbiter that sends (spec/15 R331 to
R336, spec/22 R457 to R461, R465, spec/21 R452).
-/

namespace Sys2Proof.Machine

/-- A port of the package. -/
def State.port (s : State) (m : Nat) : Port := (s.pkg.ports.find m).getD .reset

/-- Set a port. -/
def State.setPort (s : State) (m : Nat) (k : Port) : State := { s with pkg := { s.pkg with ports := s.pkg.ports.put m k } }

/-- Whether a port carries traffic. -/
def Port.up (k : Port) : Bool := k.lanes != 0 && !k.down && !k.retraining

/-! ## Packets in flits (15 R329, R331) -/

/-- The bytes of a packet. -/
def packetBytes (k : Packet) : List Byte := packetHeader k ++ k.payload

/-- FCLASS of a traffic class. -/
def fclassOf (cls : Nat) : Nat := if cls < 2 then 0 else cls - 1

/-- Content bytes of a flit. -/
def flitContent : Nat := 232

/-- What is packed into one flit: its content, the packets that end in it, how many of the entries have a byte in it, and what is left
of the last of them. -/
structure Packed where
  content : List Byte
  ended : List Packet
  taken : Nat
  left : Option (Packet × Nat)
  deriving DecidableEq, Repr

/-- The flits that a number of bytes fills. -/
def flitsFor (n : Nat) : Nat := (n + flitContent - 1) / flitContent

/-- Pack packets, each with the bytes that are left of it, end to end into a number of bytes. A packet begins only where `credit`
further slots are enough for what does not fit (log entry 30: DESIGN CHOICE, unsafe), and not where only zeros of it would stand,
for zeros up to the end of a flit are filling (log entry 33: DESIGN CHOICE, safe). -/
def packInto : Nat → Nat → List (Packet × Nat) → Packed
  | _, _, [] => ⟨[], [], 0, none⟩
  | room, credit, (q, left) :: rest =>
    let bs := (packetBytes q).drop ((packetBytes q).length - left)
    if room = 0 ∨ credit < flitsFor (left - room) ∨ (left = (packetBytes q).length ∧ (bs.take room).all (· == 0)) then
      ⟨[], [], 0, none⟩
    else if left ≤ room then
      let f := packInto (room - left) credit rest
      ⟨bs ++ f.content, q :: f.ended, f.taken + 1, f.left⟩
    else ⟨bs.take room, [], 1, some (q, left - room)⟩

/-- Bit field of a header's words. -/
def headerField (bs : List Byte) (word hi lo : Nat) : Nat := bitsOf (leNat ((bs.drop (8 * word)).take 8)) hi lo

/-- Bytes of a packet, from its header: a read request has no payload (15 R329). -/
def packetSize (bs : List Byte) : Nat := 32 + (if headerField bs 1 15 8 = 3 then 0 else headerField bs 2 52 40)

/-- The packet that a string of bytes holds. -/
def packetOf (bs : List Byte) : Packet where
  ptype := headerField bs 1 15 8
  dest := headerField bs 0 63 32
  src := headerField bs 0 31 0
  job := headerField bs 1 63 48
  pgen := headerField bs 1 47 44
  cls := headerField bs 1 43 42
  prio := headerField bs 1 41 40
  route := headerField bs 1 39 32
  step := headerField bs 1 31 16
  len := headerField bs 2 52 40
  tag := headerField bs 2 31 0
  arg := leNat ((bs.drop 24).take 8)
  op := 0
  payload := bs.drop 32

/-- Whether a header names a packet type, and its reserved fields are zero; any other packet is dropped (00 R12, 15 R329, R330;
log entry 33: DESIGN CHOICE, safe). -/
def headerKnown (bs : List Byte) : Bool :=
  [1, 2, 3, 4, 5, 6, 7, 8, 9, 10, 0x10, 0x11, 0x12, 0x20, 0x21, 0x30].contains (headerField bs 1 15 8)
    && headerField bs 1 7 0 == 0 && headerField bs 2 63 53 == 0 && headerField bs 2 39 32 == 0

/-- Take a flit's content, `fuel` packets at most, after the bytes of a packet that has begun: the packets that it completes, and
the bytes of one that it leaves unfinished. -/
def unpackFlit : Nat → List Byte → List Byte → List Packet × List Byte
  | 0, begun, _ => ([], begun)
  | fuel + 1, begun, content =>
    let bs := begun ++ content
    if content.isEmpty || (begun.isEmpty && content.all (· == 0)) then ([], begun)
    else if bs.length < 32 || decide (bs.length < packetSize bs) then ([], bs)
    else
      let (ps, left) := unpackFlit fuel [] (bs.drop (packetSize bs))
      (if headerKnown bs then packetOf (bs.take (packetSize bs)) :: ps else ps, left)

/-! ## Receive slots and credit (15 R335, 22 R460) -/

/-- Slots of the shared pool of a gateway. -/
def State.poolSlots (s : State) : Nat :=
  1024 - ((s.parts.filter (·.2.live)).map fun e => e.2.minFlits).foldl (· + ·) 0

/-- The number under which the slots of packets of no partition of this node count: it has no minimum (log entry 30: DESIGN
CHOICE, unsafe). -/
def strayOwner : Nat := 32

/-- The number under which the slots of class 3 count. -/
def managedOwner : Nat := 33

/-- The slots that a partition may yet take of a gateway whose slots the partitions' flits hold as `held` says: those of its
minimum, and those of the pool, of which one partition holds at most half. -/
def State.slotsLeft (s : State) (held : Nat → Nat) (p : Nat) : Nat :=
  let pool (q : Nat) : Nat := held q - (s.part q).minFlits
  let used := ((s.parts.filter (·.2.live)).map fun e => pool e.1).foldl (· + ·) (pool strayOwner)
  ((s.part p).minFlits - held p) + Nat.min (s.poolSlots - used) (s.poolSlots / 2 - pool p)

/-- Slots of a gateway of this node that a partition's flits hold. -/
def Port.rxHeld (k : Port) (gateway : Bool) (p : Nat) : Nat :=
  (k.held.filter fun f => f.gateway == gateway && !f.managed && f.part.getD strayOwner == p).length

/-- Whether a gateway of this node has a slot for a flit. -/
def State.rxRoom (s : State) (k : Port) (gateway managed : Bool) (part : Option Nat) : Bool :=
  if managed then decide ((k.held.filter fun f => f.gateway == gateway && f.managed).length < 32)
  else decide (0 < s.slotsLeft (k.rxHeld gateway) (part.getD strayOwner))

/-- The number under which a packet's slots count. -/
def State.slotOwner (s : State) (q : Packet) : Nat := if q.cls = 3 then managedOwner else (s.partOfJob q.job).getD strayOwner

/-- The key under which a port counts the slots of a gateway of the peer that an owner's flits hold. -/
def creditKey (gateway : Bool) (owner : Nat) : Nat := 2 * owner + bit gateway

/-- Whether a packet has begun to leave. -/
def Sending.begun (e : Sending) : Bool := decide (e.left < (packetBytes e.packet).length)

/-- Slots of a gateway of the peer that an owner's flits hold, or that are kept for what is left of a packet of its that has begun, so
that it never stops for want of credit and holds others up (22 R456; log entry 30: DESIGN CHOICE, unsafe). -/
def State.peerHeld (s : State) (k : Port) (gateway : Bool) (owner : Nat) : Nat :=
  (k.sending.filter fun e => e.begun && e.gateway == gateway && s.slotOwner e.packet == owner).foldl
    (fun n e => n + flitsFor e.left) ((k.spent.find (creditKey gateway owner)).getD 0)

/-- The slots of a gateway of the peer for which an owner has credit and which nothing is kept for. -/
def State.creditOf (s : State) (k : Port) (gateway : Bool) (owner : Nat) : Nat :=
  if owner = managedOwner then 32 - s.peerHeld k gateway owner else s.slotsLeft (s.peerHeld k gateway) owner

/-! ## A flit on its way out (15 R331, R333, R334) -/

/-- The key in a slot; empty where none is. -/
def keyAt (ks : List (List Byte)) (n : Nat) : List Byte := (ks[n]?).getD []

/-- Zeroise a slot. -/
def zeroise (ks : List (List Byte)) (n : Nat) : List (List Byte) := ks.set n []

/-- Whether both slots hold keys. -/
def twoKeys (ks : List (List Byte)) : Bool := ks.all fun k => !k.isEmpty

/-- The bytes of a flit: link header, encrypted content, the first 96 bits of its tag, and CRC-32C (15 R331). -/
def flitBytes (key : List Byte) (seq ack fclass keysel : Nat) (content : List Byte) : List Byte :=
  let header := leBytes 8 (seq * 2 ^ 48 + ack * 2 ^ 32 + fclass * 2 ^ 30 + keysel * 2 ^ 29)
  let text := content ++ List.replicate (flitContent - content.length) 0
  let body := header ++ (Config.gcmSeal key (Config.flitNonce fclass seq) header text).take (flitContent + 12)
  body ++ leBytes 4 (crc32c body)

/-- A port sends a flit, which takes a slot of its owner at a gateway of the peer: reliable and management flits are kept, with the
packets that end in them, stipple flits are not (15 R333, R335). -/
def Port.sendFlit (k : Port) (gateway : Bool) (owner fclass : Nat) (ended : List Packet) (content : List Byte) : Port :=
  let seq := if fclass = 1 then k.stipSeq else k.sendSeq
  let bs := flitBytes (keyAt k.keys k.slot) seq ((k.recvSeq + 65535) % 65536) fclass k.slot content
  let key := creditKey gateway owner
  let k := { k with wire := k.wire ++ [bs], spent := k.spent.put key ((k.spent.find key).getD 0 + 1) }
  if fclass = 1 then { k with stipSeq := (k.stipSeq + 1) % 65536 }
  else { k with sendSeq := (k.sendSeq + 1) % 65536, stored := k.stored ++ [⟨seq, ended, bs⟩] }

/-! ## Receipt (15 R333, 22 R457) -/

/-- Whether SEQ `a` is at or after SEQ `b`. -/
def seqCovers (a b : Nat) : Bool := decide ((a + 65536 - b % 65536) % 65536 < 32768)

/-- The receiver asks for replay from a SEQ: the port notes it, and how it reaches the peer is not stated (log entry 111: DESIGN
CHOICE, safe). The eighth request in a row for the same one retrains the port (22 R458). -/
def Port.askReplay (k : Port) (seq : Nat) : Port :=
  let n := if k.replays ≠ 0 ∧ k.replaySeq = seq then k.replays + 1 else 1
  { k with replaySeq := seq, replays := n, retraining := k.retraining || decide (8 ≤ n) }

/-- A field of a flit's link header. -/
def flitField (f : Flit) (hi lo : Nat) : Nat := headerField f.bytes 0 hi lo

/-- SEQ of a flit. -/
def flitSeq (f : Flit) : Nat := flitField f 63 48

/-- FCLASS of a flit. -/
def flitClass (f : Flit) : Nat := flitField f 31 30

/-- KEYSEL of a flit. -/
def flitKeysel (f : Flit) : Nat := flitField f 29 29

/-- Whether a flit has 256 bytes whose CRC-32C matches. -/
def flitCrcOk (f : Flit) : Bool := f.bytes.length == 256 && leNat (f.bytes.drop 252) == crc32c (f.bytes.take 252)

/-- The content of a flit under a key; none where its tag does not match. -/
def flitOpen (f : Flit) (key : List Byte) : Option (List Byte) :=
  if key.isEmpty then none
  else Config.gcmOpen key (Config.flitNonce (flitClass f) (flitSeq f)) (f.bytes.take 8) ((f.bytes.drop 8).take (flitContent + 12))

/-- A discarded flit (22 R457). -/
def Port.discard (k : Port) (f : Flit) : Port :=
  if flitClass f = 0 ∨ flitClass f = 2 then k.askReplay (flitSeq f)
  else if flitClass f = 1 then { k with stipLost := k.stipLost + 1 }
  else k

/-- The management packet that announces a zeroisation (log entry 103: DESIGN CHOICE, unsafe). -/
def zeroNotice (node : Nat) : Packet :=
  ⟨0x30, node * 2 ^ 15 + 0x7FFF, node * 2 ^ 15 + 0x7FFF, 0, 0, 3, 0, 0, 0, 0, 0, 2 ^ 64 - 1, 0, []⟩

/-- Whether a packet announces a zeroisation. -/
def Packet.isNotice (k : Packet) : Bool := k.ptype == 0x30 && k.len == 0 && k.arg == 2 ^ 64 - 1

/-- The sender zeroises its old slot once no reliable or management flit sent under it is unacknowledged, and announces it with the
next credit that it has for a management flit (22 R459; 15 R335). -/
def Port.retireKey (k : Port) (node : Nat) : Port :=
  if twoKeys k.keys ∧ !(k.stored.any fun e => seqCovers k.oldLast e.seq)
      ∧ (k.spent.find (creditKey false managedOwner)).getD 0 < 32 then
    { k with keys := zeroise k.keys (1 - k.slot) }.sendFlit false managedOwner 2 [zeroNotice node] (packetBytes (zeroNotice node))
  else k

/-- An ACK: the flits it covers leave the replay buffer. It returns no credit (15 R335). -/
def Port.acked (k : Port) (ack node : Nat) : Port :=
  { k with stored := k.stored.filter fun e => !seqCovers ack e.seq }.retireKey node

/-- The peer returns credit: a slot is free for each key that it names (15 R335; log entry 30: DESIGN CHOICE, unsafe). -/
def Port.credited (k : Port) (keys : List Nat) : Port :=
  { k with spent := keys.foldl (fun m key => m.put key ((m.find key).getD 0 - 1)) k.spent }

/-- Whether the far end of a port has its notice of a zeroisation yet to accept (22 R459). -/
def Port.noticeOut (k : Port) : Bool := k.stored.any fun e => e.packets.any Packet.isNotice

/-- What a port has of an FCLASS's packet that is not whole, and the flits that brought it. -/
def Port.begun (k : Port) (fclass : Nat) : List Byte × List Nat := (k.streams.find fclass).getD ([], [])

/-- The content of an accepted flit joins its stream: the packets that it completes wait at the gateway, each with the flits that
brought it, and the flit holds its slot while one of them, or what is left over, has a byte of it (15 R331, R335). -/
def Port.deliver (k : Port) (f : Flit) (part : Option Nat) (begun : List Byte × List Nat) (content : List Byte) : Port :=
  let (ps, left) := unpackFlit (flitContent + 1) begun.1 content
  let id := k.nextFlit
  let ids (i : Nat) : List Nat := if i = 0 then begun.2 ++ [id] else [id]
  let arrived := (ps.mapIdx fun i q => (⟨q, ids i⟩ : Arrived)).filter fun a => !(Packet.isNotice a.packet)
  let rest := if left.isEmpty then [] else ids ps.length
  let used := arrived.any (fun a => a.flits.contains id) || rest.contains id
  let freed := if arrived.isEmpty && rest.isEmpty then begun.2 else []
  { k with
    nextFlit := id + 1
    streams := k.streams.put (flitClass f) (left, rest)
    gate := k.gate ++ arrived
    held := (k.held.filter fun x => !freed.contains x.id) ++ (if used then [⟨id, f.gateway, part, flitClass f == 2⟩] else [])
    peerKeys := if flitClass f = 2 ∧ ps.any Packet.isNotice then zeroise k.peerKeys (1 - flitKeysel f) else k.peerKeys }

/-- The partition of a flit: that of the first packet that has bytes in it (log entry 33: DESIGN CHOICE, safe). -/
def State.flitPart (s : State) (begun content : List Byte) : Option Nat :=
  if (begun ++ content).length < 32 then none else s.partOfJob (packetOf (begun ++ content)).job

/-- A flit in its turn enters the receive buffer of its gateway, if that has a slot for it. -/
def State.enterFlit (s : State) (port : Nat) (k : Port) (f : Flit) (begun : List Byte × List Nat) (content : List Byte) :
    Option State :=
  let part := s.flitPart begun.1 content
  if flitClass f != 3 && !s.rxRoom k f.gateway (flitClass f == 2) part then none
  else some (s.setPort port (k.deliver f part begun content))

/-- A reliable or management flit that passes its checks: in SEQ order it enters; on a gap the receiver asks for replay; one that
has come before has no effect (15 R333). -/
def State.takeReliable (s : State) (port : Nat) (k : Port) (f : Flit) (content : List Byte) : State :=
  if flitSeq f = k.recvSeq then
    (s.enterFlit port { k with recvSeq := (k.recvSeq + 1) % 65536, replays := 0 } f (k.begun (flitClass f)) content).getD s
  else if seqCovers (flitSeq f) k.recvSeq then s.setPort port (k.askReplay k.recvSeq)
  else s.setPort port k

/-- A stipple flit that passes its checks. Behind a gap what had begun is lost, and the next block is taken where the first one that
begins in the flit starts, so that every block without a byte in a lost flit is delivered (22 R457; 15 R338). -/
def State.takeStippleFlit (s : State) (port : Nat) (k : Port) (f : Flit) (content : List Byte) : State :=
  let k' := { k with stipRecv := (flitSeq f + 1) % 65536 }
  let begun := k.begun 1
  if flitSeq f = k.stipRecv ∧ begun.1 ≠ [] then (s.enterFlit port k' f begun content).getD s
  else
    let k' := { k' with streams := k'.streams.erase 1, held := k'.held.filter fun x => !begun.2.contains x.id }
    let tail := content.drop f.start
    if tail.isEmpty then s.setPort port k' else (s.enterFlit port k' f ([], []) tail).getD s

/-- Whether a port carries an FCLASS: in safe mode those that trained carry class 3 only (21 R455). -/
def State.carries (s : State) (fclass : Nat) : Bool := !s.pkg.safe || decide (2 ≤ fclass)

/-- FLIT_RECEIPT: CRC, tag, SEQ, in this order (22 R457). -/
def execFlitReceipt (port : Nat) (f : Flit) (s : State) : Out :=
  let k := s.port port
  if !k.up || !s.carries (flitClass f) then .next s
  else if !flitCrcOk f then .next (s.setPort port ({ k with crcErr := k.crcErr + 1 }.discard f))
  else
    match flitOpen f (keyAt k.peerKeys (flitKeysel f)) with
    | none => .next (s.setPort port ({ k with tagErr := k.tagErr + 1 }.discard f))
    | some content =>
      let k := (k.credited f.credit).acked (flitField f 47 32) s.pkg.node
      let s := s.setPort port k
      .next (if flitClass f = 1 then s.takeStippleFlit port k f content
        else if flitClass f = 3 then s
        else s.takeReliable port k f content)

/-- REPLAY: the sender resends the stored flits from a SEQ, as they are (15 R333, 22 R457). -/
def execReplay (port seq : Nat) (s : State) : Out :=
  let k := s.port port
  if k.up && k.stored.any fun e => e.seq == seq then
    .next (s.setPort port { k with
      replayCount := k.replayCount + 1
      wire := k.wire ++ (k.stored.filter fun e => seqCovers e.seq seq).map (·.bytes) })
  else .next s

/-! ## Retraining, failure and link down (22 R458, 21 R452, R455) -/

/-- The die from which an endpoint of this node sends (15 R328, R332). -/
def localDie (loc : Nat) : Nat := if loc < 6144 then dieOfCore loc else engineDie loc

/-- The trained ports of a die that carry traffic or will again: a port that retrains holds its traffic (22 R458). -/
def State.portsOfDie (s : State) (d : Nat) : List Nat :=
  (List.range 8).filterMap fun j =>
    let k := s.port (8 * d + j)
    if k.lanes != 0 && !k.down then some (8 * d + j) else none

/-- The dies in the order in which a die without a trained port looks for one (log entry 27: DESIGN CHOICE, unsafe). -/
def dieSearch (d : Nat) : List Nat := (List.range 6).map fun i => (d + i) % 6

/-- The port through which a packet leaves (15 R332). -/
def State.portOf (s : State) (k : Packet) : Option Nat :=
  let ps := ((dieSearch (localDie (endLocal k.src))).map s.portsOfDie).find? fun l => !l.isEmpty
  ps.bind fun l => l[Config.portHash (k.dest / 2 ^ 15) k.route % Nat.max 1 l.length]?

/-- The type of the request that a reply answers (15 R330). -/
def requestType : Nat → Option Nat
  | 0x04 => some 0x03
  | 0x06 => some 0x05
  | 0x08 => some 0x07
  | 0x0A => some 0x09
  | _ => none

/-- A packet that its port can no longer deliver: its requester has an error reply of code 0x07 (22 R458). The requester of a request
is here; that of a reply is at another node, and the reply's own ARG stands for its request's (log entry 119: DESIGN CHOICE,
unsafe). An error reply goes out anew with code 0x07, and a fence goes down the path no more. -/
def State.undelivered (s : State) (k : Packet) : State :=
  let lost (rtype : Nat) : Packet :=
    { k with ptype := 0x20, len := 8, arg := 7 * 2 ^ 56 + rtype * 2 ^ 48, op := 0, payload := leBytes 8 k.arg }
  if packetRequests k then
    match s.partOfJob k.job with
    | some p => s.takeError { lost k.ptype with dest := k.src, src := k.dest } p
    | none => s
  else if k.ptype = 0x20 then s.emit { k with arg := 7 * 2 ^ 56 + k.arg % 2 ^ 56 }
  else if k.ptype = 0x21 then s.takeFence k
  else
    match requestType k.ptype with
    | some r => s.emit (lost r)
    | none => s

/-- A port is down: each packet that it holds, in its queues or in its replay buffer with a byte that is not acknowledged, is answered
(22 R458). -/
def State.failPort (s : State) (port : Nat) : State :=
  let k := s.port port
  let queued := s.outbox.filter fun p => s.portOf p == some port
  let held := ((k.stored.flatMap (·.packets)) ++ k.sending.map (·.packet)).filter (·.cls != 3)
  let s := { s with outbox := s.outbox.filter fun p => s.portOf p != some port }
  let s := s.setPort port { k with down := true, lanes := 0, retraining := false, stored := [], sending := [] }
  ((held ++ queued).foldl State.undelivered s).logWord port

/-- PORT_DOWN: a port's retraining fails. -/
def execPortDown (port : Nat) (s : State) : Out :=
  .next (if (s.port port).retraining && !(s.port port).down then s.failPort port else s)

/-- Whether what a port has found is the peer that TOPO names: a first-level Marnar switch, which reports the node that this package is
(15 R346, R348; log entry 48: DEDUCED, unsafe). -/
def State.peerFits (s : State) (x : PortUp) : Bool := x.marnar && x.node == s.pkg.node

/-- PORT_RETRAIN: a port that retrains comes up at a number of lanes, and is held down where it has found another peer than the one
that TOPO names (21 R455; log entry 48: DEDUCED, unsafe). -/
def execPortRetrain (port : Nat) (found : PortUp) (s : State) : Out :=
  let k := s.port port
  .next (if !k.retraining || k.down || !([1, 2, 4].contains found.lanes) then s
    else if !s.pkg.safe && !s.peerFits found then s.failPort port
    else (s.setPort port { k with lanes := found.lanes, retraining := false, replays := 0 }).logWord port)

/-- LINK_DOWN: the peer signals link down; the port carries nothing until it trains again. -/
def execLinkDown (port : Nat) (s : State) : Out :=
  let k := s.port port
  if k.up then .next ((s.setPort port { k with retraining := true }).logWord port) else .next s

/-- KEY_ROLLOVER: a new key goes to the idle slot at both ends and the sender switches (22 R459). A port without a key takes
its first one in slot 0
(log entry 34: DEDUCED, unsafe). -/
def execKeyRollover (port : Nat) (key : List Byte) (s : State) : Out :=
  let k := s.port port
  if !k.up || key.isEmpty || twoKeys k.keys || twoKeys k.peerKeys || k.noticeOut then .next s
  else
    let first := k.keys.all List.isEmpty
    let n := if first then 0 else 1 - k.slot
    let k := { k with
      keys := k.keys.set n key, peerKeys := k.peerKeys.set n key, slot := n, oldLast := (k.sendSeq + 65535) % 65536 }
    .next ((s.setPort port (if first then k else k.retireKey s.pkg.node)).logWord port)

/-! ## Sending (15 R331, R335, R336, 02 R61, 22 R460) -/

/-- Tokens of a port are counted in 1/256 of a flit. -/
def tokenUnit : Nat := 256

/-- The most that a token count holds: 64 flits. -/
def tokenCap : Nat := 64 * tokenUnit

/-- The token count that pays for a packet: its partition's, or that of its partition's drain (16 R357). -/
def tokenKey (p : Nat) (q : Packet) : Nat := if q.ptype = 0x12 then 64 + p else p

/-- Tokens of every partition, and of its drain, after one flit time of the port. -/
def State.tokensAfter (s : State) (k : Port) : Map Nat :=
  let after (key rise : Nat) : Nat × Nat := (key, Nat.min tokenCap ((k.tokens.find key).getD 0 + rise))
  (s.parts.filter (·.2.live)).flatMap fun e => [after e.1 e.2.share, after (64 + e.1) e.2.proof.drainShare]

/-- Whether a packet's partition is within its share. -/
def State.withinShare (s : State) (tokens : Map Nat) (q : Packet) : Bool :=
  q.cls == 3 || match s.partOfJob q.job with
    | none => true
    | some p => decide (tokenUnit ≤ (tokens.find (tokenKey p q)).getD 0)

/-- Whether a port may send a packet: safe mode leaves class 3 only (21 R455), and a full replay buffer stops what it would
keep (15 R333). -/
def State.maySend (s : State) (k : Port) (q : Packet) : Bool :=
  (!s.pkg.safe || q.cls == 3) && (q.cls == 2 || decide (k.stored.length < 512))

/-- Two packets of one FCLASS. -/
def sameFclass (q r : Packet) : Bool := fclassOf q.cls == fclassOf r.cls

/-- A packet of the outbox at its port. -/
def Sending.fresh (q : Packet) : Sending := ⟨q, (packetBytes q).length, false⟩

/-- What waits at a port, each with whether the port has it already: packets that have begun, fences, then packets of the outbox,
longest waiting first. While one is begun, no other of its FCLASS begins (15 R331), and a fence goes only behind the packets of
its partition (22 R462). -/
def State.waitingAt (s : State) (port : Nat) (k : Port) : List (Sending × Bool) :=
  let begun := k.sending.filter Sending.begun
  let free (q : Packet) : Bool := !begun.any fun e => sameFclass e.packet q || (q.ptype == 0x21 && e.packet.job == q.job)
  ((begun ++ k.sending.filter fun e => !e.begun && free e.packet).map fun e => (e, true))
    ++ (s.outbox.filter fun q => s.portOf q == some port && free q).map fun q => (Sending.fresh q, false)

/-- What waits at a port, with the gateway of the peer that takes it: a packet that has begun keeps its own, and any other has the
first that has credit for all its flits; which of the two it is, is not stated (log entry 112: DESIGN CHOICE, unsafe). -/
def State.withGateway (s : State) (k : Port) (c : Sending × Bool) : Option (Sending × Bool) :=
  if c.1.begun then some c
  else
    ([false, true].find? fun g => decide (flitsFor c.1.left ≤ s.creditOf k g (s.slotOwner c.1.packet))).map fun g =>
      ({ c.1 with gateway := g }, c.2)

/-- The request that the arbiter grants: the longest waiting with credit and within its share, and of those with credit
where none is within its share; a drain never goes beyond its own share (15 R336; 16 R357). -/
def State.grant (s : State) (port : Nat) (k : Port) (tokens : Map Nat) : Option (Sending × Bool) :=
  let able := ((s.waitingAt port k).filter fun c => s.maySend k c.1.packet).filterMap (s.withGateway k)
  match able.find? fun c => s.withinShare tokens c.1.packet with
  | some c => some c
  | none => able.find? fun c => c.1.packet.ptype != 0x12

/-- The packets that may share a flit behind the one that is granted: of its FCLASS and its partition, whose slot the flit takes, longest
waiting first (15 R331, R335). -/
def State.followers (s : State) (port : Nat) (k : Port) (c : Sending × Bool) : List (Sending × Bool) :=
  (((s.waitingAt port { k with sending := k.sending.filter fun e => !e.begun }).filter fun e =>
      sameFclass e.1.packet c.1.packet && s.slotOwner e.1.packet == s.slotOwner c.1.packet && e.1.packet.ptype != 0x12
        && s.maySend k e.1.packet).eraseP fun e => e.2 == c.2 && e.1.packet == c.1.packet && e.1.left == c.1.left)

/-- The token counts once a flit has been sent: it takes one of its partition, whose count goes no lower than 0 (15 R336; log entry
116: DESIGN CHOICE, unsafe). -/
def State.takeToken (s : State) (tokens : Map Nat) (q : Packet) : Map Nat :=
  match s.partOfJob q.job with
  | some p => if q.cls = 3 then tokens else tokens.put (tokenKey p q) ((tokens.find (tokenKey p q)).getD 0 - tokenUnit)
  | none => tokens

/-- What a port has yet to send of a list of packets once some of them, as far as it had them, are in a flit. -/
def sentOf (sending : List Sending) (taken : List (Sending × Bool)) : List Sending :=
  (taken.filter (·.2)).foldl (fun l c => l.eraseP fun e => e.packet == c.1.packet && e.left == c.1.left) sending

/-- One flit is sent, with the granted packet first in it. -/
def State.sendGranted (s : State) (port : Nat) (k : Port) (tokens : Map Nat) (c : Sending × Bool) : State :=
  let owner := s.slotOwner c.1.packet
  let queue := c :: s.followers port k c
  let free := s.creditOf k c.1.gateway owner
  let credit := if c.1.begun then free + flitsFor c.1.left - 1 else free - 1
  let f := packInto flitContent credit (queue.map fun e => (e.1.packet, e.1.left))
  let taken : List (Sending × Bool) := queue.take f.taken
  let left := f.left.toList.map fun x => (⟨x.1, x.2, c.1.gateway⟩ : Sending)
  let k' := k.sendFlit c.1.gateway owner (fclassOf c.1.packet.cls) f.ended f.content
  let k' := { k' with tokens := s.takeToken tokens c.1.packet, sending := left ++ sentOf k.sending taken }
  let gone := (taken.filter fun e => !e.2).map (·.1.packet)
  { s with outbox := gone.foldl List.erase s.outbox }.setPort port k'

/-- ARBITRATION_GRANT: one flit time of a port. -/
def execArbitrationGrant (port : Nat) (s : State) : Out :=
  let k := s.port port
  if !k.up || (keyAt k.keys k.slot).isEmpty then .next s
  else
    let tokens := s.tokensAfter k
    match s.grant port k tokens with
    | some c => .next (s.sendGranted port k tokens c)
    | none => .next (s.setPort port { k with tokens := tokens })

end Sys2Proof.Machine
end

