-- ==== Sys2Proof/Machine/Preempt.lean ====
section
/-!
DEFINITION. What the machine does to a running thread: the entry of a held trap, ACKLOST, PREEMPT and task preemption
(spec/17 R369, R379 to R381; spec/20 R437), SLEEP and the sleep depths (spec/03 R83, spec/08 R215), and the root of the
barrier channels (spec/09 R236).
-/

namespace Sys2Proof.Machine

/-! ## Traps that the machine begins -/

/-- TRAP_ENTRY: a held trap whose earlier accesses have settled is entered (17 R369). -/
def execTrapEntry (t : Nat) (s : State) : Out :=
  match s.thread t with
  | some th => .next (s.enterHeld t th)
  | none => .next s

/-- Cycles that a delivering instruction waits for one acknowledgement (20 R437). -/
def acklostCycles : Nat := 1048576

/-- A G = 0 store to a line whose forward is lost, as a deferred cause names it. -/
def lineAccess (id line fpc dom : Nat) : Access where
  id := id
  op := .store
  va := line
  info := line
  size := 64
  place := .line
  data := []
  home := false
  ord := .plain
  scope := .t
  l1ok := false
  consume := false
  isSealed := false
  dst := .none
  srcX := []
  srcV := []
  srcE := false
  desc := 0
  fpc := fpc
  dom := dom
  atom := false
  bad := false
  state := .issued
  lost := false

/-- Deliver ACKLOST before the waiting instruction of a thread (20 R437). -/
def State.takeAcklost (s : State) (t : Nat) (th : Thread) (a : Access) : State :=
  let d : Deferred := ⟨.acklost, BitVec.ofNat 64 (lineOf a.va), 0, a⟩
  (s.count th.part ctrAcklost).takeDeferred t { th with deferred := th.deferred ++ [d], stuck := none }

/-- Whether no acknowledgement of an access arrives any more: it was lost on its way to its home or there, or has performed at a home
that is unreachable (20 R437, R438). -/
def State.ackGone (s : State) (die : Nat) (th : Thread) (x : Access) : Bool :=
  x.lost || (x.hasPerformed && s.unreachable th.part die x.va)

/-- ACKLOST of access `a` of a thread, or of the line at address `a` that a release waits for: its instruction has waited
1,048,576 cycles at an unreachable home (20 R437). -/
def execAcklost (t a : Nat) (s : State) : Out :=
  match s.thread t with
  | none => .next s
  | some th =>
    let d := dieOfCore (coreOfKey t)
    let due := (th.stuck.map fun w => w.1 == th.pc.toNat && decide (w.2 + acklostCycles ≤ s.now)).getD false
    if !due || th.trap.isSome then .next s
    else
      match th.access a with
      | some x =>
        if s.ackGone d th x then .next (s.takeAcklost t { th with acc := th.acc.filter (·.id != a) } x) else .next s
      | none =>
        match th.wset.find? (·.1 == a) with
        | some l =>
          if s.unreachable th.part d a then
            .next (s.takeAcklost t { th with wset := th.wset.filter (·.1 != a), nextId := th.nextId + 1 }
              (lineAccess th.nextId a l.2 th.dom))
          else .next s
        | none => .next s

/-- Whether a thread stands between two instructions: it waits for nothing but room for an allocation. -/
def Thread.between (th : Thread) : Bool := th.wait == .none || th.wait == .alloc

/-- PREEMPT (17 R381). A stalled allocation is abandoned (19 R400). -/
def execPreempt (t : Nat) (s : State) : Out :=
  match s.thread t with
  | none => .next s
  | some th =>
    let q := (s.part th.part).quantum
    let held := s.now - th.held
    if q = 0 ∨ th.supervisor ∨ !(th.kind == .task || th.kind == .handler) ∨ held < q * 65536 ∨ th.trap.isSome
        ∨ !th.between then .next s
    else
      let (s, th) := s.abandon t th
      .next (s.takeTrap t th ⟨.preempt, BitVec.ofNat 64 held, 0, th.pc.toNat, th.pc.toNat, false, true, false, none⟩)

/-! ## Task preemption (17 R379, R380) -/

/-- Whether a thread may be the victim of task preemption: an active task thread at U outside the MXOWN slot. -/
def State.preemptible (s : State) (t : Nat) (th : Thread) : Bool :=
  th.parks && th.trap.isNone && t % 4 != (s.core (coreOfKey t)).mxNow && !s.waits t th

/-- Whether a victim is chosen before another: the lowest running level, then the latest dispatch, then the lowest core
and slot. -/
def victimBefore (a b : Nat × Thread) : Bool :=
  decide (a.2.level < b.2.level) || (a.2.level == b.2.level && (decide (b.2.dispatched < a.2.dispatched)
    || (a.2.dispatched == b.2.dispatched && decide (a.1 < b.1))))

/-- The first of a list of threads in the order of the choice. -/
def firstVictim (l : List (Nat × Thread)) : Option (Nat × Thread) :=
  l.foldl (fun m e => match m with
    | none => some e
    | some b => if victimBefore e b then some e else m) none

/-- The preemptible threads of a cluster. -/
def State.candidates (s : State) (cl : Nat) : List (Nat × Thread) :=
  (clusterSlots cl).filterMap fun t =>
    match s.thread t with
    | some th => if s.preemptible t th then some (t, th) else none
    | none => none

/-- The cycle since which a gang that has not started reserves a slot (17 R379). -/
def State.reservedSince (s : State) (t : Nat) : Option Nat :=
  (s.gangs.find? fun e => !e.2.started && e.2.keeps t).map (·.2.startedAt)

/-- The victim of a cluster: a thread in a slot that a gang has long reserved, or one that a long-waiting head run-queue
entry displaces (17 R379). -/
def State.preemptVictim (s : State) (cl : Nat) : Option (Nat × Thread) :=
  let k := s.cluster cl
  let wait := (s.part (s.clusterPart cl)).twait * 1024
  let cands := s.candidates cl
  match firstVictim (cands.filter fun e => ((s.reservedSince e.1).map fun n => decide (n + wait ≤ s.now)).getD false) with
  | some v => some v
  | none =>
    match k.dispatchOrder with
    | [] => none
    | e :: _ =>
      match k.tasks.find e.task with
      | none => none
      | some tk =>
        if e.joined + wait ≤ s.now ∧ (s.slotFor cl e).isNone then
          firstVictim (cands.filter fun v => decide (v.2.level < e.level) && s.suits v.1 (k.needs e.task tk))
        else none

/-- A preempted task stands for FCAN as a PARKED one until its dispatch (17 R380). -/
def State.markPreempted (s : State) (cl n : Nat) : State :=
  let k := s.cluster cl
  s.setCluster cl { k with tasks := k.tasks.map fun e => if e.1 = n then (n, { e.2 with preempted := true }) else e }

/-- TASK_PREEMPTION (17 R379, R380): the victim's accesses complete at .p, a pending deferred cause of it is delivered
instead, and otherwise its image goes to the park area and it re-enters the run queue with what it has received. One that awaits
the answer of another node has it first. -/
def execTaskPreemption (cl : Nat) (s : State) : Out :=
  let k := s.cluster cl
  let wait := (s.part (s.clusterPart cl)).twait * 1024
  if wait = 0 ∨ s.now < k.lastPreempt + wait then .next s
  else
    match s.preemptVictim cl with
    | none => .next s
    | some (t, th) =>
      if !th.deferred.isEmpty then (if th.between then .next (s.takeDeferred t th) else .next s)
      else if s.keepsForAnswer t th then .next s
      else if !th.completeAt .p then .next (s.settleStep t)
      else
        match th.task with
        | none => .next s
        | some (tc, n) =>
          if (s.parkRoom tc th).isNone then .next s
          else
            let (s, th) := if th.wait = .alloc then s.abandon t th else (s, th)
            let s := s.park t th th.wait
            let s := (s.wakeParked tc n th.wait).markPreempted tc n
            .next (s.setCluster cl { s.cluster cl with lastPreempt := s.now })

/-! ## Sleep (03 R83, 08 R215) -/

/-- SLEEP_TIMEOUT: 65,536 cycles of the core (08 R215). -/
def execSleepTimeout (t : Nat) (s : State) : Out :=
  match s.thread t with
  | some th =>
    match th.wait with
    | .sleep since => if since + 65536 ≤ s.now then .next (s.wakeSlot t .woken) else .next s
    | _ => .next s
  | none => .next s

/-- The deepest level a core may reach (03 R83): the reserved code acts as S1. -/
def Core.deepest (k : Core) : Nat := if k.sleepCfg = 1 then 2 else if k.sleepCfg = 2 then 3 else 1

/-- The depth that a number of idle cycles leads to. -/
def depthAfter (n : Nat) : Nat := if 4096 ≤ n then 3 else if 256 ≤ n then 2 else if 1 ≤ n then 1 else 0

/-- SLEEP_DEPTH_DESCENT (03 R83). -/
def execSleepDepthDescent (c : Nat) (s : State) : Out :=
  let k := s.core c
  if k.killed || (coreSlots c).any s.slotActive then .next s
  else .next (s.setCore c { k with depth := Nat.max k.depth (Nat.min k.deepest (depthAfter (s.now - k.restSince))) })

/-- CORE_WAKE (03 R83): a slot of a sleeping core is ready. -/
def execCoreWake (c : Nat) (s : State) : Out :=
  let k := s.core c
  if k.depth ≠ 0 ∧ (coreSlots c).any s.slotActive then .next (s.setCore c { k with depth := 0 }) else .next s

/-! ## The root of a barrier channel (09 R236) -/

/-- The key of a gang's channel. -/
def phaseKey (gang ch : Nat) : Nat := gang * 4 + ch

/-- Cycles from a release to its unstaggered completion (09 R236). -/
def releaseLatency (die : Bool) : Nat := if die then 58 else 38

/-- x + 16y of a core within its field. -/
def fieldIndex (c : Nat) : Nat := c % 256

/-- A phase releases at the present cycle with the stagger step of its last counted arrival. -/
def State.releasePhase (s : State) (key step : Nat) (die : Bool) (arrivals : List Nat) : State :=
  let s := { s with barriers := s.barriers.erase key }
  arrivals.foldl (fun s t =>
    match (s.thread t).map Thread.wait with
    | some (Wait.barrier _ _ _ _ _ _ _ d taint) =>
      s.wakeSlot t (.released (s.now + releaseLatency die + step * fieldIndex (coreOfKey t)) d taint)
    | _ => s) s

/-- The root takes the arrival of a thread (09 R236)
(log entry 69: DEDUCED, unsafe). -/
def State.takeArrival (s : State) (t : Nat) : State :=
  match s.thread t with
  | none => s
  | some th =>
    match th.wait, th.gang with
    | .barrier ch mask step tmo false since wd d taint, some n =>
      match s.gangs.find n with
      | none => s
      | some g =>
        let key := phaseKey n ch
        let ph := (s.barriers.find key).getD ⟨mask, []⟩
        if ph.mask ≠ mask then s.wakeSlot t (.status 2)
        else
          let arrivals := ph.arrivals ++ [t]
          if g.participants mask ≤ arrivals.length then s.releasePhase key step g.die arrivals
          else
            { s with barriers := s.barriers.put key { ph with arrivals := arrivals } }.setThread t
              { th with wait := .barrier ch mask step tmo true since wd d taint }
    | _, _ => s

/-- BARRIER_ARRIVAL (09 R236). -/
def execBarrierArrival (t : Nat) (s : State) : Out := .next (s.takeArrival t)

/-- A participant of a released phase completes, when its cycle has come, with status 0 and an acquire at .d (09 R236). -/
def State.barrierDone (s : State) (t : Nat) : State :=
  match s.thread t with
  | some th =>
    match th.wait with
    | .released cycle d taint =>
      if cycle ≤ s.now then
        ((s.acquire (coreOfKey t) .d).setThread t (({ th with wait := .none }.setX d 0 taint).next 4)).wakeCore (coreOfKey t)
      else s
    | _ => s
  | none => s

/-- BARRIER_COMPLETION (09 R236). -/
def execBarrierCompletion (t : Nat) (s : State) : Out := .next (s.barrierDone t)

/-- The core of a thread sends a withdrawal, its time-out having come (09 R236). -/
def State.sendWithdrawal (s : State) (t : Nat) : State :=
  match s.thread t with
  | some th =>
    match th.wait with
    | .barrier ch mask step tmo arrived since _ d taint =>
      if tmo ≠ 0 ∧ since + tmo ≤ s.now then
        s.setThread t { th with wait := .barrier ch mask step tmo arrived since true d taint }
      else s
    | _ => s
  | none => s

/-- BARRIER_TIMEOUT (09 R236). -/
def execBarrierTimeout (t : Nat) (s : State) : Out := .next (s.sendWithdrawal t)

/-- The root takes the withdrawal of an arrival whose phase has not released (09 R236)
(log entry 69: DEDUCED, unsafe). -/
def State.takeWithdrawal (s : State) (t : Nat) : State :=
  match s.thread t with
  | none => s
  | some th =>
    match th.wait, th.gang with
    | .barrier ch _ _ _ true _ true _ _, some n =>
      let key := phaseKey n ch
      match s.barriers.find key with
      | some ph =>
        let rest := ph.arrivals.filter (· != t)
        let barriers := if rest.isEmpty then s.barriers.erase key else s.barriers.put key { ph with arrivals := rest }
        { s with barriers := barriers }.wakeSlot t (.status 1)
      | none => s
    | _, _ => s

/-- BARRIER_WITHDRAWAL (09 R236). -/
def execBarrierWithdrawal (t : Nat) (s : State) : Out := .next (s.takeWithdrawal t)

/-! ## Time (09 R236; 13 R317) -/

/-- Hops from a core to the root of a gang's channels, on the die's grid (04 R115; 09 R236). -/
def rootHops (die : Bool) (c : Nat) : Nat :=
  let f := c % 1024 / 256
  c % 16 + c % 256 / 16 + if die then 16 * (f % 2) + 16 * (f / 2) else 0

/-- Cycles in which an arrival or a withdrawal of a thread reaches the root at the latest (09 R236). -/
def State.rootReach (s : State) (t : Nat) (th : Thread) : Nat :=
  6 + rootHops (((th.gang.bind s.gangs.find).map (·.die)).getD false) (coreOfKey t)

/-- The cycles in which a wait at a barrier moves on at the latest: its arrival at the root, its time-out, its withdrawal at the
root, and its completion (09 R236). -/
def Wait.dueCycles (reach : Nat) : Wait → List Nat
  | .released cycle _ _ => [cycle]
  | .barrier _ _ _ tmo arrived since wd _ _ =>
    (if arrived then [] else [since + reach])
      ++ (if tmo = 0 then [] else if !wd then [since + tmo] else if arrived then [since + tmo + reach] else [])
  | _ => []

/-- The first cycle in which a wait at a barrier moves on. -/
def State.nextDue (s : State) : Option Nat :=
  (s.threads.flatMap fun e => e.2.wait.dueCycles (s.rootReach e.1 e.2)).foldl
    (fun m c => match m with
      | some b => some (Nat.min b c)
      | none => some c) none

/-- Every thread of a slot whose wait satisfies a test takes a step. -/
def State.eachDue (s : State) (due : Nat → Wait → Bool) (f : State → Nat → State) : State :=
  s.threads.foldl (fun s e => if due (s.rootReach e.1 e.2) e.2.wait then f s e.1 else s) s

/-- What the present cycle brings to the waits at barriers: the root takes arrivals before withdrawals (09 R236). -/
def State.dueSteps (s : State) : State :=
  let now := s.now
  let s := s.eachDue (fun reach w => match w with
    | .barrier _ _ _ _ false since _ _ _ => decide (since + reach ≤ now)
    | _ => false) State.takeArrival
  let s := s.eachDue (fun _ w => match w with
    | .released .. => true
    | _ => false) State.barrierDone
  let s := s.eachDue (fun _ w => match w with
    | .barrier _ _ _ _ _ _ false _ _ => true
    | _ => false) State.sendWithdrawal
  s.eachDue (fun reach w => match w with
    | .barrier _ _ _ tmo true since true _ _ => decide (since + tmo + reach ≤ now)
    | _ => false) State.takeWithdrawal

/-- Time moves on, at most to the next cycle in which a wait at a barrier moves on: each participant of a released phase completes
in its own cycle, and an arrival, a time-out and a withdrawal come no later than R236 gives. -/
def State.pass (s : State) (n : Nat) : State :=
  let next := match s.nextDue with
    | some c => Nat.max (s.now + 1) (Nat.min c (s.now + n))
    | none => s.now + n
  { s with now := if n = 0 then s.now else next }.dueSteps

end Sys2Proof.Machine
end

