-- ==== Sys2Proof/Machine/Ramzu.lean ====
section
/-!
DEFINITION. What Ramzu and the host do: kills, containment and retirement, MCHECK, resets and bring-up, partitions from
their creation to their teardown, SPDM, restore and TDISP (spec/15 R344 to R349, spec/16 R359 to R362, R468, spec/17 R363,
spec/19 R416, spec/21 R440 to R455, spec/22 R462, R466).
-/

namespace Sys2Proof.Machine

/-! ## Events and their reports (21 R445, R446) -/

/-- A syndrome (21 R445). -/
def syndrome (kind src unit detail ppa : Nat) : Word :=
  BitVec.ofNat 64 (kind * 2 ^ 60 + src * 2 ^ 56 + unit % 2 ^ 13 * 2 ^ 43 + detail % 256 * 2 ^ 35 + ppa % 2 ^ 35)

/-- An event of a partition: in Ramzu's log, and queued as MCHECK unless 64 wait (21 R446). -/
def State.event (s : State) (p : Option Nat) (syn : Word) : State :=
  let s := s.logWord syn.toNat
  match p with
  | none => s
  | some p =>
    let k := s.part p
    if k.mchecks.length < 64 then s.setPart p { k with mchecks := k.mchecks ++ [⟨syn⟩] } else s.count p ctrMchklost

/-- Control-die cycles, which a warm reset does not restart. -/
def State.controlTime (s : State) : Nat := s.pkg.uptime + s.now

/-- Cycles of the window of R448 for kills in one cluster. -/
def killWindow : Nat := 2 ^ 31

/-- Control-die cycles of 24 hours (03 R63). -/
def dayCycles : Nat := 24 * 3600 * 1500000000

/-- How many events of a unit lie within a window that ends now. -/
def State.recent (s : State) (l : List (Nat × Nat)) (unit window : Nat) : Nat :=
  l.countP fun e => e.1 == unit && decide (s.controlTime < e.2 + window)

/-- PPA of a syndrome: of a granule of HBM that poison was found in, at SRC 3, 4 or 5 (21 R445); poison that came from another node
has none (log entry 49: DESIGN CHOICE, unsafe). -/
def State.poisonPpa (s : State) (p : Option Nat) (src pa : Nat) : Nat :=
  if src < 3 ∨ 5 < src ∨ 2 ^ 40 ≤ pa then 0
  else
    match (s.part (p.getD 0)).stage2.findIdx? (· == pa / 65536 * 65536) with
    | some g => (g * 65536 + pa % 65536) / 64
    | none => 0

/-! ## The threads of a killed core (21 R443; 19 R416) -/

/-- Poison a future at once, so that what follows finds it terminal (21 R446): a future of another node by a packet. -/
def State.poisonNow (s : State) (f : Word) (status : BitVec 16) : State :=
  if f = 0 then s
  else if handleNode f = s.pkg.node then s.perform (.poison f status)
  else s.post f (.poison f status)

/-- A task that was running on a killed core restarts, or its future is poisoned (19 R416). -/
def State.loseTask (s : State) (th : Thread) : State :=
  let s := s.freeFrame th.frameAt
  match th.task with
  | none => s.poisonNow th.future 0x0516
  | some (cl, n) =>
    let k := s.cluster cl
    match k.tasks.find n with
    | none => s
    | some tk =>
      if tk.restart && decide (tk.restarts < 3) then
        let tk := { tk with
          state := .queued, frame := none, hdr := none, clsCore := none, restarts := tk.restarts + 1, level := th.level
          since := s.now }
        (s.setCluster cl { k with tasks := k.tasks.put n tk }).count th.part ctrRestart
      else
        (s.freeTask cl n).poisonNow tk.future (if tk.restart then 0x0517 else 0x0516)

/-- Complete a thread's accesses at .p, as far as their homes can be reached (17 R383). -/
def State.settleAll (s : State) (t : Nat) : Nat → State
  | 0 => s
  | fuel + 1 =>
    match s.thread t with
    | some th => if th.completeAt .p then s else (s.settleStep t).settleAll t fuel
    | none => s

/-- Stop one thread of a gang that is lost: its accesses complete, and its causes are dropped with it (21 R443). -/
def State.stopThread (s : State) (t : Nat) : State :=
  match s.thread t with
  | none => s
  | some th =>
    let s := (s.forget t th).setThread t { th with deferred := [], trap := none }
    (s.settleAll t (8 * (th.acc.length + th.wset.length) + 8)).dropThread t

/-- A whole gang is lost with a core (21 R443). -/
def State.loseGang (s : State) (n : Nat) : State :=
  match s.gangs.find n with
  | none => s
  | some g =>
    let s := { s with barriers := (List.range 4).foldl (fun b ch => b.erase (phaseKey n ch)) s.barriers }
    let s := g.slots.foldl State.stopThread (s.finishUnits (slotCores g.slots))
    let s := s.releaseGang n g
    ({ s with gangs := s.gangs.erase n }).poisonNow g.future 0x0516

/-- A thread of a killed core, which is in its slot no more, ends as the kind at the bottom of its frames (21 R443). The
supervisor thread's loss is what the launch that follows tells of (21 R443, R447)
(log entry 38: DEDUCED, unsafe). -/
def State.loseThread (s : State) (syn : Word) (th : Thread) : State :=
  match th.baseKind with
  | .task => s.loseTask th
  | .handler => s.poisonNow th.future 0x0516
  | .gang =>
    match th.gang with
    | some n => s.loseGang n
    | none => s
  | .supervisor =>
    let k := s.part th.part
    s.setPart th.part { k with relaunch := some syn, moveTo := none }

/-- The CLS span of a thread of a killed core is free; a gang's goes with the gang, and parked tasks keep theirs (21 R443). -/
def State.freeOwn (s : State) (c : Nat) (th : Thread) : State :=
  if th.baseKind == .gang || th.baseOwn.2 == 0 then s else s.freeCls c th.baseOwn.1 th.baseOwn.2

/-- The threads of a killed core leave their slots, their accesses that have not performed discarded whole (21 R442), and then
each has its end. -/
def State.loseThreads (s : State) (c : Nat) (syn : Word) : State :=
  let lost := (coreSlots c).filterMap fun t => (s.thread t).map fun th => (t, th)
  let s := lost.foldl (fun s x => (s.forget x.1 x.2).dropThread x.1) s
  lost.foldl (fun s x => (s.freeOwn c x.2).loseThread syn x.2) s

/-! ## Core kill (21 R442) -/

/-- A record of a killed core's receive queue (21 R442). -/
def State.loseRecord (s : State) (p : Nat) (r : Record) : State :=
  if r.isCode then (s.count p ctrMsgfault).poisonNow r.reply 0x0316 else s.poisonNow r.reply 0x0516

/-- A record of a discarded injection queue (21 R442): an engine command that the core has issued runs on, and so does the
request of a task that is parked; any other is discarded, with the tag of its request, and is not among those injected (16 R358)
(log entry 31: DEDUCED, unsafe). -/
def State.discardRecord (s : State) (c p : Nat) (r : Record) : State :=
  match r.command.bind s.commands.find, r.command, r.request with
  | some x, some n, _ => { s with commands := s.commands.put n { x with arrived := true, startedAt := s.now } }
  | _, _, some k =>
    let parked := s.outstanding.any fun o => o.core == c && o.tag == r.tag && (match o.waiter with
      | some (.parked _ _) => true
      | _ => false)
    if parked then s.depart k
    else { (s.countInjected p (2 ^ 64 - 1)) with
      outstanding := s.outstanding.filter fun o => !(o.core == c && o.tag == r.tag) }
  | _, _, none => if endNode r.dest = s.pkg.node then s else s.countInjected p (2 ^ 64 - 1)

/-- The core after a kill: its CORECFG stands until it is readmitted, and the rest is lost
(log entry 39: DESIGN CHOICE, unsafe). -/
def Core.dead (k : Core) : Core :=
  { Core.reset with
    sleepCfg := k.sleepCfg, clsSplit := k.clsSplit, mxOwn := k.mxOwn, h3 := k.h3, clsNow := k.clsNow, mxNow := k.mxNow
    h3Now := k.h3Now, killed := true, sealedRx := true }

/-- Nothing wakes the waiters that satisfy a test: what would have is discarded. -/
def State.forgetAll (s : State) (gone : Waiter → Bool) : State :=
  { s with
    outstanding := s.outstanding.map fun o => if o.waiter.any gone then { o with waiter := none } else o
    homeOps := s.homeOps.filter fun o => !gone o.waiter
    wakes := s.wakes.map fun m => { m with waiters := m.waiters.filter fun w => !gone w.1 }
    clusters := s.clusters.map fun e => (e.1, { e.2 with futures := e.2.futures.map fun x =>
      (x.1, { x.2 with waiters := x.2.waiters.filter fun w => !gone w.1 }) }) }

/-- Whether a waiter is a parked task of a cluster. -/
def Waiter.parkedIn (cl : Nat) : Waiter → Bool
  | .parked c _ => c == cl
  | _ => false

/-- Stop a core (21 R442, R443): its injection queue, its receive queue with the message that its receive unit runs, and its
threads, in this order. -/
def State.stopCore (s : State) (c : Nat) (syn : Word) : State :=
  let k := s.core c
  let cl := clusterOfCore c
  let p := s.clusterPart cl
  let s := k.inj.foldl (fun s r => s.discardRecord c p r) (s.setCore c k.dead)
  let s := k.rx.foldl (fun s r => s.loseRecord p r) s
  let s := match k.code with
    | some run => (s.forgetAll (Waiter.code c == ·)).loseRecord p run.record
    | none => s
  let s := s.loseThreads c syn
  let u := s.cluster cl
  s.setCluster cl { u with stalls := u.stalls.filter fun x => coreOfKey x.1 != c }

/-- The event of a kill or a containment, `s` being the state before it and `t` the one after: the launch of a supervisor thread that
was lost with it counts as its delivery, and any other is an event of the partition (21 R446, R447). -/
def State.killEvent (s t : State) (p : Option Nat) (syn : Word) : State :=
  if p.any fun p => (t.part p).relaunch != (s.part p).relaunch then t.logWord syn.toNat else t.event p syn

/-! ## Containment and retirement of a cluster (21 R449) -/

/-- Remove the cells and the poison of the places that satisfy a test: they read as zero. -/
def State.clearPlaces (s : State) (gone : Nat → Bool) : State :=
  { s with mem := s.mem.filter fun c => !gone c.1, poison := s.poison.filter fun a => !gone a }

/-- Whether a place is a byte of a cluster's tile store. -/
def inTile (cl a : Nat) : Bool := decide (tilePlace cl 0 ≤ a) && decide (a < tilePlace (cl + 1) 0)

/-- Whether a place is a byte of a core's window or tiles. -/
def inWindow (c a : Nat) : Bool := decide (windowPlace c 0 ≤ a) && decide (a < windowPlace (c + 1) 0)

/-- The handle of an entry of a cluster. -/
def entryHandle (node cl slot : Nat) (e : Future) : Word := mkHandle node cl slot e.gen e.part

/-- Contain a cluster: its cores are killed, its rings disabled, which ends every wait on them (20 R431), its tile store lost, its
futures and tasks poisoned. -/
def State.containCluster (s : State) (cl src : Nat) : State :=
  let syn := syndrome 2 src cl 0 0
  let before := s
  let p := s.ownerOfGranule (granuleOfCluster cl)
  let s := (clusterCores cl).foldl (fun s c => if (s.core c).killed then s else s.stopCore c syn) s
  let s := (s.cluster cl).rings.foldl (fun s r => (s.wakeAll (Wait.onRing cl r.1) (.refused 0)).endCopyr cl r.1) s
  let s := (s.clearPlaces (inTile cl)).forgetAll (Waiter.parkedIn cl)
  let s := (s.cluster cl).futures.foldl (fun s e =>
    if e.2.state == .pending then
      ((s.finishFuture (entryHandle s.pkg.node cl e.1 e.2) .poisoned 0 0x0516).map (·.2)).getD s
    else s) s
  let s := (s.cluster cl).tasks.foldl (fun s e => s.poisonNow e.2.future 0x0516) s
  let k := s.cluster cl
  let s := s.setCluster cl { Cluster.reset with
    gens := k.gens, posted := k.posted, clockMax := k.clockMax, contained := true }
  let s := { s with pkg := { s.pkg with containments := s.pkg.containments ++ [(cl, s.controlTime)] } }
  before.killEvent s p syn

/-- PRESENT of a cluster clears (01 R29). -/
def Package.retire (k : Package) (cl : Nat) : Package :=
  { k with capCluster := k.capCluster.mapIdx fun d m =>
      if d = cl / 64 ∧ m.testBit (cl % 64) then m - 2 ^ (cl % 64) else m }

/-- The usable channels of a memory group in ascending order (04 R104). -/
def Package.channels (k : Package) (g : Nat) : List Nat :=
  (List.range 16).filter fun n => ((k.capChan[g / 4]?).getD 0).testBit (g % 4 * 16 + n)

/-- Bytes of HBM of a memory group: 2 GiB of each usable channel (01 R31, 04 R104). -/
def Package.groupBytes (k : Package) (g : Nat) : Nat := (k.channels g).length * 2 ^ 31

/-- The channel of its group on which a byte of HBM is stored, and its address there: block b is on ordinal b mod n (04 R104). -/
def Package.channelOf (k : Package) (pa : Nat) : Option (Nat × Nat) :=
  let ch := k.channels (pa / 2 ^ 35)
  let b := pa % 2 ^ 35 / 256
  (ch[b % ch.length]?).map fun c => (c, b / ch.length * 256 + pa % 256)

/-- Whether a granule has a present cluster and a usable channel (01 R27). -/
def Package.usable (k : Package) (g : Nat) : Bool :=
  ((List.range 16).any fun i => k.present (g * 16 + i)) && !(k.channels g).isEmpty

/-- GRAN_USABLE of a granule that has become unusable clears, a step after PRESENT or CHAN_OK (01 R29). -/
def Package.dropUnusable (k : Package) (g : Nat) : Package :=
  if k.granUsable.testBit g && !k.usable g then { k with granUsable := k.granUsable - 2 ^ g } else k

/-- Retire a cluster (21 R449). -/
def State.retireCluster (s : State) (cl src : Nat) : State :=
  let p := s.ownerOfGranule (granuleOfCluster cl)
  { s with pkg := s.pkg.retire cl }.event p (syndrome 4 src cl 1 0)

/-- CORE_KILL: poison that a core has consumed kills it, which is reported with where it was found, and the third kill in its cluster
within the window contains the cluster as well (21 R442, R445, R448)
(log entry 36: DEDUCED, unsafe). -/
def execCoreKill (c : Nat) (s : State) : Out :=
  match (s.core c).consumed with
  | none => .next s
  | some (src, pa) =>
    let cl := clusterOfCore c
    let p := s.ownerOfGranule (granuleOfCore c)
    if (s.core c).killed then .next s
    else
      let third := decide (2 ≤ s.recent s.pkg.kills cl killWindow)
      let s := { s with pkg := { s.pkg with kills := s.pkg.kills ++ [(cl, s.controlTime)] } }
      let syn := syndrome 1 src c 0 (s.poisonPpa p src pa)
      let t := s.killEvent (s.stopCore c syn) p syn
      .next (if third then t.containCluster cl 0xC else t)

/-- A core comes back from self test with every array cleared and CORECFG at its reset value (21 R444). -/
def State.readmitCore (s : State) (c : Nat) : State :=
  { s.clearPlaces (inWindow c) with cores := s.cores.erase c }

/-- SELF_TEST_COMPLETION of a killed core, and of a contained cluster (21 R444, R449); at a retired cluster the second step of
R29. -/
def execSelfTestCompletion (c : Nat) (pass : Bool) (s : State) : Out :=
  let cl := clusterOfCore c
  let p := s.ownerOfGranule (granuleOfCore c)
  if !s.pkg.present cl then .next { s with pkg := s.pkg.dropUnusable (granuleOfCluster cl) }
  else if !(s.core c).killed then .next s
  else if (s.cluster cl).contained then
    if !pass then .next (s.retireCluster cl 7)
    else if 2 ≤ s.recent s.pkg.containments cl dayCycles then .next (s.retireCluster cl 0xC)
    else
      let s := (clusterCores cl).foldl State.readmitCore s
      .next ((s.setCluster cl { s.cluster cl with contained := false }).event p (syndrome 7 7 cl 0 0))
  else if pass then .next ((s.readmitCore c).event p (syndrome 7 7 c 0 0))
  else .next ((s.containCluster cl 7).retireCluster cl 7)

/-! ## The supervisor launch (17 R363; 21 R447) -/

/-- The supervisor launch of a partition in a slot, with x2 (17 R363, 21 R447). -/
def State.launchSupervisor (s : State) (p t : Nat) (x2 : Word) : State :=
  let k := s.part p
  let th := Thread.fresh (BitVec.ofNat 56 k.entry) .supervisor p 0 .all
  let c := coreOfKey t
  let th := { th with
    x := (th.x.set 1 (BitVec.ofNat 64 p)).set 2 x2, homeCluster := clusterOfCore c, dispatched := s.now, held := s.now }
  let s := s.setPart p { k with moveTo := none, relaunch := none }
  ((s.setThread t th).acquire c .p).wakeCore c

/-- The lowest-numbered slot that a relaunch may take. -/
def State.relaunchSlot (s : State) (p : Nat) : Option Nat := (s.partSlots p).find? s.slotOpen

/-- SUPERVISOR_RELAUNCH: the supervisor thread was lost with its core, or an event is due while the partition has no live one
(21 R447). -/
def execSupervisorRelaunch (p : Nat) (s : State) : Out :=
  let k := s.part p
  if !k.live || k.ending || (s.supervisorSlot p).isSome then .next s
  else
    match k.relaunch, k.mchecks, s.relaunchSlot p with
    | some syn, _, some t => .next (s.launchSupervisor p t syn)
    | none, m :: rest, some t => .next ((s.setPart p { k with mchecks := rest }).launchSupervisor p t m.syndrome)
    | _, _, _ => .next s

/-- MCHECK_DELIVERY: the oldest event, to a supervisor thread that runs outside any handler (21 R446; 17 R367), once its earlier
accesses have settled, so that no refused one displaces the event. An unfinished wait is abandoned
(log entry 35: DEDUCED, unsafe). -/
def execMcheckDelivery (p : Nat) (s : State) : Out :=
  let k := s.part p
  match k.mchecks, s.supervisorSlot p with
  | m :: rest, some t =>
    match s.thread t with
    | some th =>
      if !th.frames.isEmpty || th.trap.isSome || th.wait.answered then .next s
      else
        let (s, th) := s.abandon t th
        if th.wait.rests then .next (s.setThread t th)
        else if !th.deferred.isEmpty then .next (s.takeDeferred t th)
        else if !th.settled then .next ((s.setThread t th).progress t)
        else
          let s := s.setPart p { s.part p with mchecks := rest }
          .next (s.takeTrap t th ⟨.mcheck, m.syndrome, 0, th.pc.toNat, th.pc.toNat, false, true, false, none⟩)
    | none => .next s
  | _, _ => .next s

/-! ## Partitions (17 R363; 22 R462) -/

/-- Live partitions. -/
def State.liveParts (s : State) : List (Nat × Part) := s.parts.filter (·.2.live)

/-- The sum of a figure over the live partitions. -/
def State.total (s : State) (f : Part → Nat) : Nat := (s.liveParts.map fun e => f e.2).foldl (· + ·) 0

/-- The lowest-numbered present core of a granule. -/
def State.firstCore (s : State) (g : Nat) : Option Nat :=
  (((List.range 16).map (g * 16 + ·)).filter s.pkg.present).flatMap clusterCores |>.foldl
    (fun m c => match m with
      | none => some c
      | some b => some (Nat.min b c)) none

/-- The least of a list of granules. -/
def leastGranule (gs : List Nat) : Nat := (gs.head?.map fun g => gs.foldl Nat.min g).getD 0

/-- The slot of the supervisor launch at a partition's creation (17 R363). -/
def State.launchSlot (s : State) (gs : List Nat) : Option Nat := (s.firstCore (leastGranule gs)).map (· * 4)

/-- Whether a granule can be given to a new partition (01 R23): the cores of its present clusters are not under test (21 R444). -/
def State.granuleFree (s : State) (g : Nat) : Bool :=
  decide (g < 24) && s.pkg.granUsable.testBit g && (s.ownerOfGranule g).isNone && !s.pkg.failedGroups.contains g
    && (s.cores.all fun e => granuleOfCore e.1 != g || !e.2.killed || !s.pkg.present (clusterOfCore e.1))

/-- Whether Ramzu grants a request for a partition: usable granules, stage 2 within the HBM that their groups hold, and sums within
the figures of the package (01 R23, R31; 03 R68; 04 R89, R90, R104, R108; 15 R335, R336). -/
def State.grants (s : State) (r : PartSpec) : Bool :=
  !s.pkg.safe && !r.granules.isEmpty && r.granules.eraseDups.length == r.granules.length && r.granules.all s.granuleFree
    && r.stage2.all (fun pa => pa % 65536 == 0 && r.granules.contains (pa / 2 ^ 35)
      && decide (pa % 2 ^ 35 < s.pkg.groupBytes (pa / 2 ^ 35)))
    && r.stage2.eraseDups.length == r.stage2.length
    && decide (s.total (·.domains) + r.domains ≤ 8192) && decide (1 ≤ r.domains)
    && decide (s.total (·.minSlots) + r.minSlots ≤ 256) && decide (s.total (·.minFlits) + r.minFlits ≤ 896)
    && decide (s.total (·.share) + r.share ≤ 256) && (s.partOfJob r.job).isNone

/-- The lowest partition number in no use. -/
def State.freePart (s : State) : Option Nat := (List.range 24).find? fun p => !(s.part p).live

/-- A partition at its creation. -/
def newPart (r : PartSpec) (pgen : Nat) : Part :=
  { Part.absent with
    live := true, granules := r.granules, pgen := pgen, job := r.job, domains := r.domains, queueCount := r.queues
    minSlots := r.minSlots, minFlits := r.minFlits, share := r.share, entry := r.entry, memSize := r.stage2.length * 65536
    stage2 := r.stage2, iommu := r.iommu }

/-- PGEN of a new partition: its granules take the largest of theirs (log entry 32: DEDUCED, unsafe). -/
def State.pgenOf (s : State) (gs : List Nat) : Nat := (gs.map fun g => (s.pkg.pgens.find g).getD 0).foldl Nat.max 0

/-- PARTITION_CREATION, with its one supervisor launch (17 R363)
(log entry 42: DESIGN CHOICE, unsafe). -/
def execPartitionCreation (r : PartSpec) (s : State) : Out :=
  match s.freePart, s.launchSlot r.granules with
  | some p, some t =>
    if s.grants r then
      let g := s.pgenOf r.granules
      let s := { s with
        pkg := { s.pkg with pgens := r.granules.foldl (fun m x => m.put x g) s.pkg.pgens }
        touched := s.touched.filter fun u => !r.granules.contains (u / 2 ^ 19) }
      .next ((s.setPart p (newPart r g)).launchSupervisor p t 0)
    else .next s
  | _, _ => .next s

/-- The cores and clusters of some granules run nothing and take nothing more: what they hold of tasks and messages goes. -/
def State.quietUnits (s : State) (gs : List Nat) : State :=
  { s with
    cores := s.cores.map fun e =>
      if gs.contains (granuleOfCore e.1) then
        (e.1, { e.2 with inj := [], rx := [], handlerHead := none, code := none, semWait := [], latchJob := [], passOut := [] })
      else e
    clusters := s.clusters.map fun e =>
      if gs.contains (granuleOfCluster e.1) then
        (e.1, { e.2 with tasks := [], runq := [], parked := [], parkOrder := [], parkSpilled := [], parkAt := [], stalls := []
                         posted := [], cancels := [] })
      else e }

/-- Issue stops in a partition, its engines take no new command, and what a cut of it held performs no more: each request has an error
reply of code 0x09 (22 R462 step 1, R463). -/
def State.stopPart (s : State) (p : Nat) : State :=
  let s := s.quietUnits (s.part p).granules
  let s := (s.part p).proof.held.foldl (fun s k => s.refusePacket p k 0x09) s
  let k := s.part p
  let s := s.setPart p { k with
    pool := [], moveTo := none, relaunch := none, restored := [], proof := { k.proof.disarmed with held := [] } }
  { s with
    threads := s.threads.filter fun e => e.2.part != p
    transit := s.transit.filter fun x => x.thread.part != p
    barriers := s.barriers.filter fun e => ((s.gangs.find (e.1 / 4)).map (·.part)) != some p
    gangs := s.gangs.filter fun e => e.2.part != p
    commands := s.commands.filter fun e => e.2.part != p
    homeOps := s.homeOps.filter (·.part != p)
    wakes := s.wakes.filter fun m => !(s.part p).granules.contains (granuleOfCluster m.cluster) }

/-- No gateway injects what a partition has yet to send (22 R462 step 1). -/
def State.dropOutbox (s : State) (p : Nat) : State :=
  { s with outbox := s.outbox.filter fun k => k.job != (s.part p).job || k.cls == 3 }

/-- The fence of a partition (22 R462 step 2). -/
def State.fence (s : State) (p : Nat) : Packet :=
  let e := endpoint s.pkg.node 0x7FFF
  s.packet p 0x21 e e 0 0 0 0 0 (s.part p).pgen []

/-- The trained ports: one that retrains holds what it has (22 R458). -/
def State.trainedPorts (s : State) : List Nat := (List.range 48).filter fun m => (s.port m).lanes != 0 && !(s.port m).down

/-- Teardown begins: issue stops and a fence goes down every path; those inside the package return at once (22 R462)
(log entry 41: DEDUCED, unsafe). -/
def State.beginTeardown (s : State) (p : Nat) : State :=
  let ports := s.trainedPorts
  let f := s.fence p
  let s := ports.foldl (fun s m =>
    s.setPort m { s.port m with sending := (s.port m).sending ++ [Sending.fresh f] }) ((s.dropOutbox p).stopPart p)
  s.setPart p { s.part p with ending := true, fences := ports.length, fencedAt := s.now }

/-- Whether a place belongs to the granules of a partition: HBM, tile stores, windows. -/
def inGranules (gs : List Nat) (a : Nat) : Bool :=
  if a < 2 ^ 40 then gs.contains (a / 2 ^ 35)
  else if a < 2 ^ 52 then false
  else if a < 2 ^ 53 then gs.contains (granuleOfCluster ((a - 2 ^ 52) / 2 ^ 21))
  else if a < 2 ^ 60 then gs.contains (granuleOfCore ((a - 2 ^ 53) / 2 ^ 26))
  else false

/-- Every cluster of some granules at its reset values; what lowered its clock stands, and one that is contained stays so (22
R462; 21 R449, R454). -/
def State.resetClusters (s : State) (gs : List Nat) : State :=
  { s with clusters := s.clusters.map fun e =>
      if gs.contains (granuleOfCluster e.1) then
        (e.1, { Cluster.reset with clockMax := e.2.clockMax, contained := e.2.contained })
      else e }

/-- Every core of some granules at its reset values; a killed one stays so until its self test has ended (22 R462; 21 R444). -/
def State.resetCores (s : State) (gs : List Nat) : State :=
  { s with cores := s.cores.filterMap fun e =>
      if !gs.contains (granuleOfCore e.1) then some e
      else if e.2.killed then some (e.1, { Core.reset with killed := true, sealedRx := true })
      else none }

/-- A port without a partition: its tokens go, no slot of a first switch holds a flit of it any more, and a flit that it has left here
counts as one of no partition, until its packets have been refused (22 R456, R462). -/
def Port.without (k : Port) (p : Nat) : Port :=
  { k with
    tokens := (k.tokens.erase p).erase (64 + p)
    spent := (k.spent.erase (creditKey false p)).erase (creditKey true p)
    held := k.held.map fun f => if f.part = some p then { f with part := none } else f }

/-- The ports without a partition. -/
def Package.withoutPart (k : Package) (p : Nat) : Package := { k with ports := k.ports.map fun e => (e.1, e.2.without p) }

/-- Whether a source's number is that of a queue or a pool of a partition. -/
def sourceIn (p n : Nat) : Bool := n / 65536 == p || n == 24 * 65536 + p

/-- The distributor without a partition. -/
def Dist.without (d : Dist) (p : Nat) (gs : List Nat) : Dist :=
  { d with
    slots := d.slots.filter (·.1 != p), accepted := d.accepted.filter (·.2.part != p)
    writes := d.writes.filter (·.part != p), boosts := d.boosts.filter fun e => !sourceIn p e.1
    refusedAt := d.refusedAt.filter fun e => !sourceIn p e.1
    reported := d.reported.filter fun e => !gs.contains (granuleOfCluster e.1)
    views := d.views.filter fun e => !gs.contains (granuleOfCluster e.1) }

/-- A partition ends: its reply tags are freed, PGEN advances, and its state is cleared (22 R462 steps 4 to 6). -/
def State.endPart (s : State) (p : Nat) : State :=
  let k := s.part p
  let gs := k.granules
  let s := (((s.stopPart p).clearPlaces (inGranules gs)).resetClusters gs).resetCores gs
  let pkg := s.pkg.withoutPart p
  { s with
    outstanding := s.outstanding.filter (·.part != p)
    touched := s.touched.filter fun u => !gs.contains (u / 2 ^ 19)
    dist := s.dist.without p gs
    parts := s.parts.erase p
    pkg := { pkg with
      pgens := gs.foldl (fun m g => m.put g ((k.pgen + 1) % 16)) pkg.pgens
      walkers := pkg.walkers.filter fun e => e.part != p } }

/-- Cycles of the 1 ms that a teardown waits once its fences have returned (22 R462). -/
def teardownCycles : Nat := 1500000

/-- TEARDOWN: it begins, and ends 1 ms after the last fence has returned. -/
def execTeardown (p : Nat) (s : State) : Out :=
  let k := s.part p
  if !k.live then .next s
  else if !k.ending then .next (s.beginTeardown p)
  else if k.fences = 0 ∧ k.fencedAt + teardownCycles ≤ s.now then .next (s.endPart p)
  else .next s

/-! ## Memory groups (21 R448, R450, R451) -/

/-- Whether the home of a line, as an access of a die finds it, lies in a memory group. -/
def State.homedIn (s : State) (p die va g : Nat) : Bool :=
  match (s.part p).held die (lineOf va) with
  | some (pa, _) => pa / 2 ^ 35 == g
  | none => ((translate s p die (lineOf va) true).toOption.map fun q => q.place (lineOf va) / 2 ^ 35 == g).getD false

/-- Whether an access is on its way to its home and needs its acknowledgement: a G = 1 store or an atomic (20 R437). -/
def Access.toHome (a : Access) : Bool :=
  (a.place == .line || a.place == .atom) && (match a.op with
    | .load => false
    | .store => a.home
    | _ => true)

/-- The accesses in flight to homes in a memory group are never acknowledged (21 R450). -/
def State.loseFlights (s : State) (p g : Nat) : State :=
  { s with threads := s.threads.map fun e =>
      if e.2.part = p then
        (e.1, { e.2 with acc := e.2.acc.map fun a =>
          if a.toHome && s.homedIn p (dieOfCore (coreOfKey e.1)) a.va g then { a with lost := true } else a })
      else e }

/-- The L1 caches without the lines that are homed in a memory group (21 R450). -/
def State.dropGroupL1 (s : State) (g : Nat) : State :=
  { s with cores := s.cores.map fun e => (e.1, { e.2 with l1 := e.2.l1.filter fun l => l.pa / 2 ^ 35 != g }) }

/-- Contain a memory group: its L2 lines are written back, accesses in flight to it are lost, new accesses of its partition to its
granules are refused, and its L1 lines and cached translations go
(log entry 37: DEDUCED, unsafe). -/
def State.containGroup (s : State) (g src : Nat) : State :=
  let inGroup (pa : Nat) : Bool := decide (pa < 2 ^ 40) && pa / 2 ^ 35 == g
  let s := match s.ownerOfGranule g with
    | some p => (s.loseFlights p g).dropGroupL1 g
    | none => s
  let s := match s.ownerOfGranule g with
    | some p => s.flushHomes p true fun h => inGroup h.pa
    | none => s
  let s := { s with pkg := { s.pkg with failedGroups := s.pkg.failedGroups ++ [g] } }
  match s.ownerOfGranule g with
  | none => s.event none (syndrome 3 src g 0 0)
  | some p =>
    let k := s.part p
    let mine := (List.range k.stage2.length).filter fun i => (k.stage2[i]?).any fun pa => pa / 2 ^ 35 == g
    (s.setPart p { k with
      s2refused := k.s2refused ++ mine, xcache := k.xcache.filter fun x => !inGroup x.pa }).event (some p) (syndrome 3 src g 0 0)

/-- Containment of a memory group ends with its contents kept. -/
def State.mapGroup (s : State) (g : Nat) : State :=
  let s := { s with pkg := { s.pkg with failedGroups := s.pkg.failedGroups.filter (· != g) } }
  match s.ownerOfGranule g with
  | none => s
  | some p =>
    let k := s.part p
    s.setPart p { k with s2refused := k.s2refused.filter fun i => !((k.stage2[i]?).any fun pa => pa / 2 ^ 35 == g) }

/-- CHAN_OK of some of the sixteen channels of a group clears (01 R29). -/
def Package.retireChannels (k : Package) (g : Nat) (ns : List Nat) : Package :=
  let lost (m : Nat) : Nat := ns.eraseDups.foldl (fun m n =>
    let b := g % 4 * 16 + n
    if n < 16 ∧ m.testBit b then m - 2 ^ b else m) m
  { k with capChan := k.capChan.mapIdx fun d m => if d = g / 4 then lost m else m }

/-- CHANNEL_TEST of a contained group (21 R450): each channel that fails is retired, announced, and ends the partition. UNIT numbers it
over the package, where R19 numbers a channel only within its slice: slice and die before it, d · 64 + 4 s + k (log entry 113: DESIGN
CHOICE, unsafe). At a group that is not contained it is the second step of R29 (log entry 40: DEDUCED, unsafe). -/
def execChannelTest (gr : Nat) (failing : List Nat) (s : State) : Out :=
  if !s.pkg.failedGroups.contains gr then .next { s with pkg := s.pkg.dropUnusable gr }
  else if failing.isEmpty then .next (s.mapGroup gr)
  else
    let p := s.ownerOfGranule gr
    let s := { s with pkg := { (s.pkg.retireChannels gr failing) with
      failedGroups := s.pkg.failedGroups.filter (· != gr) } }
    let s := failing.foldl (fun s n => s.event p (syndrome 4 7 (gr * 16 + n) 2 0)) s
    .next (match p with
      | some p => if (s.part p).ending then s else s.beginTeardown p
      | none => s)

/-- Whether the drift of a cluster, the largest of its monitors', is above a number of percent: birth values and counts (21 R454). -/
def driftAbove (births counts : List Nat) (percent : Nat) : Bool :=
  (births.zip counts).any fun m => decide (percent * m.1 < (m.1 - m.2) * 100)

/-- Lowerings of a cluster's clock that its drift calls for: one above 3 %, and one for each further 1 %, at most 10. -/
def lowerings (births counts : List Nat) : Nat := ((List.range 10).filter fun k => driftAbove births counts (3 + k)).length

/-- One step of 50 MHz of a cluster's clock, which is reported (21 R454). -/
def State.lowerClock (s : State) (cl : Nat) : State :=
  let k := s.cluster cl
  let clock := Nat.min k.clockMax s.pkg.clkMax - 1
  (s.setCluster cl { k with clockMax := clock }).event (s.ownerOfGranule (granuleOfCluster cl)) (syndrome 5 0xB cl clock 0)

/-- The monitors of a present cluster are compared with their fused birth values: the steps that its drift calls for and that have not
been taken, and above 13 % at the floor the cluster's end (21 R454). -/
def State.ageCluster (s : State) (cl : Nat) (counts : List Nat) : State :=
  let births := (s.pkg.births.find cl).getD []
  if !s.pkg.present cl then s
  else
    let target := Nat.max s.pkg.clkFloor (s.pkg.clkMax - lowerings births counts)
    let s := (List.range (Nat.min (s.cluster cl).clockMax s.pkg.clkMax - target)).foldl (fun s _ => s.lowerClock cl) s
    if driftAbove births counts 13 ∧ target = s.pkg.clkFloor then (s.containCluster cl 0xB).retireCluster cl 0xB else s

/-- AGEING_MONITOR_CHECK of the four monitors of a cluster, by what they count now (21 R454). -/
def execAgeingMonitorCheck (cl : Nat) (first second : Nat × Nat) (s : State) : Out :=
  .next (s.ageCluster cl [first.1, first.2, second.1, second.2])

/-! ## Warm reset (21 R451 to R453) -/

/-- Whether a partition is implicated: the cause lay in a granule of it, or in shared control-die state, which a number from
24 on stands for. -/
def implicated (units : List Nat) (k : Part) : Bool := units.any fun u => decide (24 ≤ u) || k.granules.contains u

/-- A launch queue after a warm reset (21 R453): its ages count from the reset. -/
def LaunchQueue.afterReset (l : LaunchQueue) : LaunchQueue :=
  { l with
    enable := false, mapped := false, record := none, begun := [], refusedRead := false, pendingSince := 0, idleSince := 0, headSince := 0 }

/-- A partition after a warm reset: its registers, counters and memory stand, its CUT is over, and its caches are empty (21 R451 to
R453). -/
def Part.afterReset (k : Part) : Part :=
  { k with
    queues := k.queues.map fun e => (e.1, e.2.afterReset), pool := [], copies := [], lines := [], delayed := [], xcache := []
    moveTo := none, relaunch := none, proof := k.proof.disarmed }

/-- A port after a warm reset, at whose first step it signals link down to its peer: it comes up with its saved settings and its keys,
and nothing on its way, or trains again where those do not bring it up (21 R452; log entry 43: DEDUCED, unsafe). -/
def Port.afterReset (k : Port) (fails : Bool) : Port :=
  { Port.reset with
    lanes := k.lanes, down := k.down, retraining := k.retraining || (fails && k.lanes != 0 && !k.down)
    signals := k.signals + bit (k.lanes != 0 && !k.down), keys := k.keys, peerKeys := k.peerKeys, slot := k.slot
    crcErr := k.crcErr, tagErr := k.tagErr, replayCount := k.replayCount, stipLost := k.stipLost, wire := k.wire }

/-- The distributor after a warm reset: each record accepted and not completed is to complete with VALUE 0 and STATUS 0x0516 (21
R453). -/
def Dist.afterReset (d : Dist) : Dist :=
  { Dist.reset with
    accepted := d.accepted, nextRecord := d.nextRecord, writes := d.writes, notices := d.accepted.map fun e => ⟨e.1, 0, 0x0516⟩ }

/-- The package with everything reset that a warm reset resets. Clusters that fail its self test are retired (21 R449, R452). -/
def State.resetDies (s : State) (failing ports : List Nat) : State :=
  let s := s.clearPlaces fun a => decide (2 ^ 52 ≤ a) && decide (a < 2 ^ 60)
  let s := s.resetClusters (List.range 24)
  let s := failing.foldl (fun s cl => if s.pkg.present cl then s.retireCluster cl 7 else s) s
  { s with
    cur := 0, now := 0, threads := [], cores := [], barriers := [], gangs := [], dist := s.dist.afterReset, commands := []
    wakes := [], transit := [], outstanding := [], homeOps := [], outbox := []
    clusters := s.clusters.map fun e => (e.1, { e.2 with contained := false })
    parts := s.parts.map fun e => (e.1, e.2.afterReset)
    pkg := { s.pkg with
      uptime := s.pkg.uptime + s.now, handlerCap := s.pkg.capCluster, walkers := []
      ports := s.pkg.ports.map fun e => (e.1, e.2.afterReset (ports.contains e.1)) } }

/-- A warm reset with the units in which its cause lay, its SRC, the clusters that fail its self test, and the ports that their saved
settings do not bring up (21 R451 to R453). -/
def State.warmReset (s : State) (units : List Nat) (src : Nat) (failing ports : List Nat) : State :=
  let gone := (s.liveParts.filter fun e => implicated units e.2 || e.2.ending).map (·.1)
  let s := gone.foldl State.endPart s
  let s := s.liveParts.foldl (fun s e => (s.forwardAll e.1).flushHomes e.1 true fun _ => true) s
  let s := s.resetDies failing ports
  let syn := syndrome 6 src 0 0 0
  (s.liveParts.foldl (fun s e => match s.launchSlot e.2.granules with
    | some t => s.launchSupervisor e.1 t syn
    | none => s) s).logWord syn.toNat

/-- WARM_RESET: its cause lay in some granules, in shared control-die state (a number from 24 on), or in the temperature
(none). -/
def execWarmReset (cause : ResetCause) (s : State) : Out :=
  let src := if cause.units.isEmpty then 0xA else if cause.units.any fun u => decide (24 ≤ u) then 9 else 5
  .next (s.warmReset cause.units src cause.failing cause.ports)

/-- THROTTLE: what is withheld is issue cycles only; at 105 °C the package takes a warm reset (15 R349)
(log entry 83: DEDUCED, unsafe). -/
def execThrottle (celsius _watts : Nat) (s : State) : Out :=
  .next (if 105 ≤ celsius then s.warmReset [] 0xA [] [] else s)

/-- A memory group fails: it is contained, and with another group of its die contained already the package takes a warm reset (21
R448). -/
def State.failGroup (s : State) (g src : Nat) : State :=
  if 24 ≤ g ∨ s.pkg.failedGroups.contains g then s
  else
    match s.pkg.failedGroups.find? fun f => f / 4 == g / 4 with
    | some f => s.warmReset [f, g] src [] []
    | none => s.containGroup g src

/-- DIE_TO_DIE_LINK_FAILURE: the memory group behind the link fails; a link to the control die takes the package to warm reset
(21 R448). -/
def execDieToDieLinkFailure (gr : Option Nat) (s : State) : Out :=
  match gr with
  | none => .next (s.warmReset [24] 8 [] [])
  | some g => .next (s.failGroup g 8)

/-! ## Errors of the hardware (21 R440, R448) -/

/-- An uncorrectable error of HBM counts against its channel: more than 64 within 24 hours contain its group (21 R448). -/
def State.channelError (s : State) (pa : Nat) : State :=
  match s.pkg.channelOf pa with
  | none => s
  | some (k, _) =>
    let ch := pa / 2 ^ 35 * 16 + k
    let s := { s with pkg := { s.pkg with channelErrors := s.pkg.channelErrors ++ [(ch, s.controlTime)] } }
    if 64 < s.recent s.pkg.channelErrors ch dayCycles then s.failGroup (pa / 2 ^ 35) 0xC else s

/-- The lines of a die's L2 after an uncorrectable error in one: a clean one is dropped, a dirty one is poisoned (21 R440). -/
def Part.spoilLine (k : Part) (die line : Nat) : Part :=
  let copy (c : CopyLine) : Bool := c.die == die && c.line == line
  let home (h : HomeLine) : Bool := homeDie h.pa == die && h.line == line
  { k with
    copies := (k.copies.filter fun c => !copy c || c.dirty != 0).map fun c => if copy c then { c with bad := true } else c
    lines := (k.lines.filter fun h => !home h || h.dirty != 0).map fun h => if home h then { h with bad := true } else h }

/-- What follows an error that a structure's protection finds (21 R440, R441, R448). Which of them arise, and when, is the
hardware's. -/
def State.hardwareError (s : State) (e : HardwareError) : State :=
  match e with
  | .corrected => { s with pkg := { s.pkg with corrected := s.pkg.corrected + 1 } }.logWord 0
  | .read c tile => if (s.core c).killed then s else s.consumeFrom c (2 ^ 62) (if tile then 2 else 0)
  | .granule pa =>
    let s := { s with poison := lineOf pa :: s.poison.filter (· != lineOf pa) }
    if pa < 2 ^ 40 then s.channelError pa else s
  | .l1 c line => s.setCore c { s.core c with l1 := (s.core c).l1.filter (·.line != line) }
  | .plb c va =>
    s.setCore c { s.core c with plb := (s.core c).plb.filter fun e => !(decide (e.base ≤ va) && decide (va < e.base + 2 ^ e.log2)) }
  | .l2Data p die line => s.setPart p ((s.part p).spoilLine die line)
  | .l2Tags g => s.failGroup g 4
  | .table cl => if s.pkg.present cl && !(s.cluster cl).contained then s.containCluster cl 6 else s
  | .control => s.warmReset [24] 9 [] []

/-- PATROL_SCRUBBER: what it finds in a granule of HBM or a line of an L2 slice (21 R440). -/
def execPatrolScrubber (found : HardwareError) (s : State) : Out := .next (s.hardwareError found)

/-! ## Bring-up (15 R346 to R348; 21 R455) -/

/-- The ports that TOPO names; none for a reserved code (15 R346). -/
def topoPorts (topo : Nat) : Option (List Nat) :=
  match topo with
  | 0 => some []
  | 1 => some ((List.range 6).map (8 * ·))
  | 2 => some (List.range 48)
  | 3 => some ((List.range 6).flatMap fun d => (List.range 4).map (8 * d + ·))
  | _ => none

/-- The node number that trained ports report, when it is one (15 R348). -/
def commonNode (up : List PortUp) : Option Nat :=
  match up with
  | [] => some 0
  | x :: rest => if rest.all (·.node == x.node) then some x.node else none

/-- The node number when the trained topology is the one that TOPO names: the ports, and at each a first-level Marnar switch
(15 R346, R348). -/
def topologyNode (topo : Nat) (up : List PortUp) : Option Nat :=
  match topoPorts topo with
  | none => none
  | some ps =>
    let found := up.map (·.port)
    if ps.all found.contains && found.all ps.contains && up.all (fun x => x.marnar && [1, 2, 4].contains x.lanes) then
      commonNode up
    else none

/-- A port that is to train: its counters stand until a cold reset (22 R465). -/
def Port.untrained (k : Port) : Port :=
  { Port.reset with
    crcErr := k.crcErr, tagErr := k.tagErr, replayCount := k.replayCount, stipLost := k.stipLost, wire := k.wire
    signals := k.signals }

/-- Stages 5 to 8: ports train, the topology is compared, and the node number is taken (15 R347). -/
def State.train (s : State) (up : List PortUp) : State :=
  let s : State := { s with pkg := { s.pkg with ports := s.pkg.ports.map fun e => (e.1, e.2.untrained) } }
  let s := up.foldl (fun s x => s.setPort x.port { (s.port x.port).untrained with lanes := x.lanes }) s
  match topologyNode s.pkg.topo up with
  | some n => { s with pkg := { s.pkg with safe := false, node := n, stage := 8 } }
  | none => { s with pkg := { s.pkg with safe := true, stage := 6 } }

/-- A mask of each of the six dies. -/
def dieMasks (l : List Nat) : List Nat := (List.range 6).map fun d => (l[d]?).getD 0 % 2 ^ 64

/-- Stages 2 to 4: the straps, the fuses and what the self test leaves of PRESENT and CHAN_OK (01 R27; 15 R347). -/
def Package.loadFuses (k : Package) (f : Fuses) : Package :=
  let k : Package := { k with
    topo := f.topo % 256, stepping := f.stepping % 256, clkMax := f.clkMax % 256, clkFloor := f.clkFloor % 256
    capCluster := dieMasks f.clusters, capChan := dieMasks f.channels
    births := (List.range 384).zip (f.monitors.map (·.1)) }
  { k with granUsable := (List.range 24).foldl (fun m g => if k.usable g then m + 2 ^ g else m) 0 }

/-- The monitors are read, and the steps that they call for are taken again from the fused birth values (21 R454), before the masks
of PRESENT and GRAN_USABLE stand (15 R347). -/
def State.readMonitors (s : State) (f : Fuses) : State :=
  let counts : Map (List Nat) := (List.range 384).zip (f.monitors.map (·.2))
  let s := counts.foldl (fun s e => s.ageCluster e.1 e.2) s
  let k := (List.range 24).foldl Package.dropUnusable s.pkg
  { s with pkg := { k with handlerCap := k.capCluster } }

/-- COLD_RESET: the package starts from reset through the bring-up stages. Ramzu's image needs a valid signature; the
replay-protected store survives (15 R347, 16 R361)
(log entry 44: DEDUCED, unsafe). -/
def execColdReset (fuses : Fuses) (image : List Byte) (up : List PortUp) (s : State) : Out :=
  let s' := { State.reset with schedule := s.schedule, free := s.free }
  let s' := { s' with pkg := { s'.pkg with stage := 1, measurement := Config.sha512 image, sealCounters := s.pkg.sealCounters } }
  if Config.signatureValid image then .next (({ s' with pkg := s'.pkg.loadFuses fuses }.readMonitors fuses).train up)
  else .next s'

/-- RETRAINING_REQUEST: in safe mode, stages 5 and 6 again (21 R455). -/
def execRetrainingRequest (up : List PortUp) (s : State) : Out :=
  .next (if s.pkg.safe ∧ s.pkg.stage = 6 then s.train up else s)

/-! ## The host on CXL.io (15 R342, R343, R347; 21 R455) -/

/-- Whether the host reaches a function: the physical one once bring-up has ended, in safe mode or not, and the interface of a
partition. -/
def State.functionReady (s : State) (f : Nat) : Bool :=
  decide (6 ≤ s.pkg.stage) && (f == 0 || (!s.pkg.safe && (s.part (f - 1)).live))

/-- An answer to the host. -/
def State.reply (s : State) (r : HostReply) : State := { s with pkg := { s.pkg with hostOut := s.pkg.hostOut ++ [r] } }

/-- A request of the host on CXL.io. The contents of configuration space are not stated (log entry 102: DESIGN CHOICE, safe). -/
def State.hostTurn (s : State) (q : HostAsk) : State :=
  match q with
  | .config f _ =>
    if s.pkg.stage < 6 then s.reply .retry
    else if s.functionReady f then
      let (w, s) := s.takeFree
      s.reply (.data (w.toNat % 2 ^ 32))
    else s
  | .barRead f off size => if s.functionReady f then s.reply (.data (s.barRead f off size)) else s
  | .barWrite f off size data => if s.functionReady f then s.barWrite f off size data else s

/-! ## SPDM and measurements (15 R345; 16 R359, R468) -/

/-- An answer in a DOE mailbox. -/
def State.answerDoe (s : State) (bs : List Byte) : State := { s with pkg := { s.pkg with doeOut := s.pkg.doeOut ++ [bs] } }

/-- The bytes of a stage-2 table; its layout is Ramzu's (04 R108)
(log entry 45: DESIGN CHOICE, safe). -/
def Part.stage2Bytes (k : Part) : List Byte := k.stage2.flatMap (leBytes 8)

/-- The configuration that measurement 3 covers, of one partition (15 R345). -/
def Part.configBytes (k : Part) : List Byte := leBytes 8 k.minFlits ++ leBytes 8 k.share ++ leBytes 8 k.job
  ++ k.granules.flatMap (leBytes 1)

/-- A measurement that a requester may receive (15 R345). -/
def State.measured (s : State) (q : Requester) (index : Nat) : Option (List Byte) :=
  let own := match q with
    | .pf => none
    | .vf p => some p
    | .peer _ p => p
  match index, q, own with
  | 1, _, _ => some (Config.sha512 Config.bootRom)
  | 2, _, _ => some s.pkg.measurement
  | 3, .pf, _ => some (Config.sha512 (s.liveParts.flatMap fun e => e.2.configBytes))
  | 3, .vf p, _ => some (Config.sha512 (s.part p).configBytes)
  | 4, _, some p => some (Config.sha512 (s.part p).stage2Bytes)
  | 5, _, some p => some (s.part p).measurement
  | n, .pf, _ => if 16 ≤ n ∧ n < 40 then some (Config.sha512 (s.part (n - 16)).stage2Bytes) else none
  | _, _, _ => none

/-- The partition whose job a request in class 3 names: in ARG, for JOB is 0 there (15 R329, R345; log entry 120: DESIGN CHOICE,
unsafe). -/
def State.askedPart (s : State) (k : Packet) : Option Nat := s.partOfJob (k.arg % 2 ^ 16)

/-- Whether Ramzu hears a requester: the physical function, an interface that is enabled, or an endpoint of another node whose
packet in class 3 waits, for the job that it names (15 R345). -/
def State.hears (s : State) (q : Requester) : Bool :=
  match q with
  | .pf => s.functionReady 0
  | .vf p => s.functionReady (p + 1)
  | .peer ep p => s.pkg.mgmtIn.any fun k => k.src == ep && s.askedPart k == p

/-- An answer of Ramzu to a requester: in its mailbox, or in class 3, for the request that is taken then. -/
def State.answerTo (s : State) (q : Requester) (bs : List Byte) : State :=
  match q with
  | .pf | .vf _ => s.answerDoe bs
  | .peer ep p =>
    match s.pkg.mgmtIn.find? fun k => k.src == ep && s.askedPart k == p with
    | none => s
    | some k =>
      { s with pkg := { s.pkg with mgmtIn := s.pkg.mgmtIn.erase k } }.emit
        { k with src := endpoint s.pkg.node 0x7FFF, dest := ep, len := bs.length, payload := bs }

/-- An SPDM request that is refused with InvalidRequest (16 R468). -/
def State.invalidRequest (s : State) (q : Requester) : State :=
  let s := s.answerTo q (Config.spdmSign [0x7F, 0x01])
  match q with
  | .vf p => s.count p ctrAttfail
  | _ => s

/-- SPDM_REQUEST (15 R344, R345; 16 R359, R468). -/
def execSpdmRequest (q : Requester) (r : SpdmAsk) (s : State) : Out :=
  if !s.hears q then .next s
  else
    match r, q with
    | .measurement n, _ =>
      match s.measured q n with
      | some m => .next (s.answerTo q (Config.spdmSign m))
      | none => .next (s.invalidRequest q)
    | .secret key verified, .vf p =>
      .next (if verified && key.length == 32 then s.setPart p { s.part p with secret := some key } else s.invalidRequest q)
    | .secret _ _, _ => .next (s.invalidRequest q)
    | .ideKey key, .vf p => .next (s.setPart p { s.part p with ideKey := key })
    | .ideKey _, _ => .next (s.invalidRequest q)
    | .other req, _ => .next (s.answerTo q (Config.spdmSign req))

/-- IMAGE_SUBMISSION: before the first launch, the tenant measurement is extended (15 R345). -/
def execImageSubmission (p : Nat) (image : List Byte) (s : State) : Out :=
  let k := s.part p
  if k.live && !k.frozen then
    .next (s.setPart p { k with measurement := Config.sha512 (k.measurement ++ Config.sha512 image) })
  else .next s

/-! ## Restore (16 R357, R359 to R362, R468) -/

/-- Bytes of an image. -/
def imageBytes (bs : List Byte) (off n : Nat) : List Byte := (bs.drop off).take n

/-- A little-endian field of an image. -/
def imageNat (bs : List Byte) (off n : Nat) : Nat := leNat (imageBytes bs off n)

/-- The reason for which a restore is refused before anything is written: the header is read first, then come the checks and the key
(16 R362, R468). -/
def restoreRefusal (k : Part) (held : Nat) (r : Restore) : Option Nat :=
  let b := r.image
  let counter := imageNat b 0x008 8
  if k.launched then some 6
  else if !r.reachable || decide (b.length < 0x1000) then some 7
  else if !Config.verify r.chain (imageBytes b 0 0x140) (imageBytes b 0x140 64) then some 1
  else if imageBytes b 0x040 64 ≠ k.measurement then some 2
  else if counter < r.expected ∨ counter < held then some 3
  else if k.units < imageNat b 0x020 8 then some 4
  else if k.secret.isNone then some 8
  else none

/-- Records of an image's channel log. -/
def imageLogs (b : List Byte) : Nat := (imageNat b 0x030 8 + 65535) / 65536

/-- Bytes of a whole image. -/
def restoreSize (b : List Byte) : Nat :=
  let n := imageNat b 0x028 8
  dataOff n (imageLogs b) + 65536 * n + imageNat b 0x030 8

/-- Record `i` of an image decrypted: none where its tag fails. -/
def openRecord (k : Part) (b : List Byte) (n nlog i : Nat) : Option (List Byte) :=
  let size := if i < n then 65536 else Nat.min 65536 (imageNat b 0x030 8 - 65536 * (i - n))
  Config.gcmOpen (sealKey k (imageNat b 0x008 8) (imageNat b 0x014 4 % 2 ^ 17)) (recordNonce i) []
    (imageBytes b (dataOff n nlog + 65536 * i) size ++ imageBytes b (tagOff n + 16 * i) 16)

/-- Every record of an image: none where a digest or a tag fails. -/
def openImage (k : Part) (b : List Byte) (n nlog : Nat) : Option (List (List Byte)) :=
  if Config.sha512 (imageBytes b 0x1000 (4 * n)) ≠ imageBytes b 0x0C0 64
      ∨ Config.sha512 (imageBytes b (tagOff n) (16 * (n + nlog))) ≠ imageBytes b 0x100 64 then none
  else (List.range (n + nlog)).mapM (openRecord k b n nlog)

/-- The places of the granules of a partition below its proof reserve. -/
def Part.belowReserve (k : Part) : List Nat := k.stage2.take (k.units - k.reserve.length)

/-- The caches of a partition without the lines of some granules of HBM, which a write of Ramzu replaces at their homes (05
R122). -/
def Part.dropCached (k : Part) (gs : List Nat) : Part :=
  let gone (pa : Nat) : Bool := gs.contains (pa / 65536 * 65536)
  { k with copies := k.copies.filter fun c => !gone c.pa, lines := k.lines.filter fun h => !gone h.pa }

/-- Write zero to every granule of a partition below its reserve (16 R362, R468). -/
def State.zeroPart (s : State) (p : Nat) : State :=
  let gs := (s.part p).belowReserve
  (s.setPart p ((s.part p).dropCached gs)).clearPlaces fun a => decide (a < 2 ^ 40) && gs.contains (a / 65536 * 65536)

/-- Write the granules of an image at their partition-physical addresses. -/
def State.writeGranules (s : State) (p : Nat) (gs : List (Nat × List Byte)) : State :=
  gs.foldl (fun s g => match (s.part p).belowReserve[g.1]? with
    | some pa => s.storeAt p pa (g.2.take 65536)
    | none => s) s

/-- One packet of a channel log, and the rest (15 R329, 16 R358). -/
def logPacket (bs : List Byte) : Packet × List Byte :=
  let len := headerField bs 2 52 40
  (packetOf (bs.take (32 + len)), bs.drop (32 + roundUp len 32))

/-- The packets of a channel log in its order. -/
def logPackets : Nat → List Byte → List Packet
  | 0, _ => []
  | fuel + 1, bs => if bs.length < 32 then [] else (logPacket bs).1 :: logPackets fuel (logPacket bs).2

/-- An operation with the payload of a logged atomic: one operand, or the two of acas and acasq (15 R330). -/
def replayedOp (k : Packet) (w : Nat) : Nat := if k.payload.length ≤ 8 then w % 7 else 7 + w % 2

/-- A logged write or atomic performs here, its reply discarded (16 R362); none while it has to wait for host memory. The operation
of an atomic, for which a packet has no place, is free among those with a payload of its length (15 R330; log entry 18: DESIGN
CHOICE, safe). -/
def State.replayPacket (s : State) (p : Nat) (k : Packet) : Option State :=
  if k.ptype ≠ 5 ∧ k.ptype ≠ 7 then some s
  else if s.fabricWaits p controlDie k then none
  else
    let (w, s) := s.takeFree
    let s' := if k.ptype = 5 then s.takeWrite k p controlDie else s.takeAtomic { k with op := replayedOp k w.toNat } p controlDie
    let q := s'.part p
    some { s'.setPart p { q with proof := { q.proof with injected := (s.part p).proof.injected } } with outbox := s.outbox }

/-- Replay the writes and atomics of a log in its order. -/
def State.replayLog (s : State) (p : Nat) : List Packet → Option State
  | [] => some s
  | k :: ks => (s.replayPacket p k).bind fun s => s.replayLog p ks

/-- A logged message for its LOCAL endpoint on this node. -/
def localMessage (node : Nat) (k : Packet) : Packet := { k with dest := endpoint node (endLocal k.dest) }

/-- The effects of a restore whose image checks (16 R362 steps 3 to 5); none while a logged write waits for host memory. -/
def State.writeImage (s : State) (p : Nat) (b : List Byte) (n : Nat) (recs : List (List Byte)) : Option State :=
  let pages := (List.range n).map fun i => imageNat b (0x1000 + 4 * i) 4
  let log := ((recs.drop n).flatten).take (imageNat b 0x030 8)
  let ks := logPackets (log.length / 32 + 1) log
  let s := (s.zeroPart p).writeGranules p (pages.zip (recs.take n))
  (s.replayLog p ks).map fun s =>
    let msgs := (ks.filter fun k => k.ptype == 1 || k.ptype == 2).map (localMessage s.pkg.node)
    let s := s.setPart p { s.part p with restored := msgs }
    { s with pkg := { s.pkg with sealCounters := s.pkg.sealCounters.put (s.part p).job (imageNat b 0x008 8) } }

/-- A restore is refused with a reason (16 R468). -/
def State.refuseRestore (s : State) (p reason : Nat) : State := (s.answerDoe (leBytes 1 reason)).count p ctrProofref

/-- RESTORE_REQUEST (16 R362, R468): an image that ends before its last byte is one of which an endpoint was lost once writing had begun
(log entry 46: DEDUCED, unsafe). -/
def execRestoreRequest (p : Nat) (r : Restore) (s : State) : Out :=
  let k := s.part p
  if !k.live then .next s
  else
    let held := (s.pkg.sealCounters.find k.job).getD 0
    match restoreRefusal k held r with
    | some reason =>
      let checked := reason == 2 || reason == 3 || reason == 4 || reason == 8
      .next ((if checked then s.setPart p { k with frozen := true } else s).refuseRestore p reason)
    | none =>
      let s' := s.setPart p { k with frozen := true }
      let n := imageNat r.image 0x028 8
      if r.image.length < restoreSize r.image then .next ((s'.zeroPart p).refuseRestore p 7)
      else
      match openImage k r.image n (imageLogs r.image) with
      | none => .next ((s'.zeroPart p).refuseRestore p 5)
      | some recs => .next ((s'.writeImage p r.image n recs).getD s)

/-! ## TDISP (15 R344; 22 R466) -/

/-- TDISP_REQUEST: CONFIG_UNLOCKED to CONFIG_LOCKED, and CONFIG_LOCKED to RUN once the host has set the stream's keys (15 R344, 22
R466). -/
def execTdispRequest (p : Nat) (run : Bool) (s : State) : Out :=
  let k := s.part p
  if !k.live then .next s
  else if k.tdisp = .unlocked ∧ !run then .next (s.setPart p { k with tdisp := .locked })
  else if k.tdisp = .locked ∧ run ∧ k.ideKey ≠ [] then .next (s.setPart p { k with tdisp := .run })
  else .next s

/-- Whether an address of a partition names host memory. -/
def State.hostLine (s : State) (p line : Nat) : Bool :=
  match translate s p controlDie line false with
  | .ok g => decide (2 ^ 60 ≤ g.place line)
  | .error _ => false

/-- Every host line of a partition is dropped, dirty bytes included (22 R466). -/
def State.dropHostLines (s : State) (p : Nat) : State :=
  let k := s.part p
  let s := s.setPart p { k with
    copies := k.copies.filter fun c => decide (c.pa < 2 ^ 60), xcache := k.xcache.filter fun x => decide (x.pa < 2 ^ 60) }
  { s with cores := s.cores.map fun e => (e.1, { e.2 with l1 := e.2.l1.filter fun l => !(l.part == p && decide (2 ^ 60 ≤ l.pa)) }) }

/-- An access to host memory whose acknowledgement is outstanding is refused like one that has not been sent (22 R466). -/
def Access.unsent (a : Access) (host : Nat → Bool) : Access :=
  match a.state, a.place with
  | .performed _, .line | .performed _, .atom => if host (lineOf a.va) then { a with state := .issued } else a
  | _, _ => a

/-- The host accesses of a partition that have not completed are to be refused: those of its threads, of its RLDs and RSTs, and
the stores of its engines that have been accepted (22 R466). -/
def State.refuseHost (s : State) (p : Nat) (host : Nat → Bool) : State :=
  { s with
    threads := s.threads.map fun e =>
      if e.2.part = p then (e.1, { e.2 with acc := e.2.acc.map (·.unsent host) }) else e
    homeOps := s.homeOps.map fun o => if o.part = p then { o with access := o.access.unsent host } else o
    commands := s.commands.map fun e =>
      if e.2.part = p then
        (e.1, { e.2 with
          sq := e.2.sq.map fun x => if x.place.any (fun pa => decide (2 ^ 60 ≤ pa)) then { x with place := none } else x })
      else e }

/-- A launch queue as the interface enters ERROR: of a record that needs host memory nothing that has been read stands, so that none is
accepted (22 R466). -/
def LaunchQueue.dropHost (l : LaunchQueue) (host : Nat → Bool) : LaunchQueue :=
  let va := l.base + l.head % 2 ^ l.size * 128
  if host (lineOf va) || host (lineOf (va + 64)) then { l with record := none, begun := [] } else l

/-- TDISP_ERROR_ENTRY (22 R466). -/
def execTdispErrorEntry (p : Nat) (s : State) : Out :=
  let k := s.part p
  if k.live && (k.tdisp == .locked || k.tdisp == .run) then
    let queues := k.queues.map fun e => (e.1, e.2.dropHost (s.hostLine p))
    let s := (s.refuseHost p (s.hostLine p)).dropHostLines p
    .next ((s.setPart p { s.part p with tdisp := .error, ideKey := [], queues := queues }).logWord p)
  else .next s

/-- STOP_INTERFACE_REQUEST (22 R466). -/
def execStopInterfaceRequest (p : Nat) (s : State) : Out :=
  let k := s.part p
  if k.live && k.tdisp == .error then .next (s.setPart p { k with tdisp := .unlocked }) else .next s

end Sys2Proof.Machine
end

