-- ==== Sys2Proof/Machine/Steps.lean ====
section
/-!
DEFINITION. The steps of the reference machine as operations of their own (spec/05 R119 to R122, spec/04 R93, R105, R109,
R112): each takes one access, line or address one step on, and does nothing where that step cannot be taken.
-/

namespace Sys2Proof.Machine

/-- Take the next step of an access of a thread, when it is of a kind and may go. -/
def State.stepAccess (s : State) (t a : Nat) (p : Access → Bool) : State :=
  match s.thread t with
  | some th =>
    match th.access a with
    | some x => if p x && th.mayGo x && !s.lacksXlate t th x then s.advance t th x else s
    | none => s
  | none => s

/-- Whether an access has issued and not performed. -/
def Access.isIssued (a : Access) : Bool := a.state == .issued

/-- Whether an access's place is a single place. -/
def Access.atSingle (a : Access) : Bool :=
  match a.place with
  | .single _ => true
  | _ => false

/-- BIND (05 R120). -/
def execBind (t a : Nat) (s : State) : Out :=
  .next (s.stepAccess t a fun x => x.isIssued && x.op == .load && (x.place == .line || x.atSingle))

/-- PERFORM0 (05 R121): a G = 0 store to a cacheable line, or any write of a single place. -/
def execPerform0 (t a : Nat) (s : State) : Out :=
  .next (s.stepAccess t a fun x => x.isIssued && x.writes
    && (x.atSingle || (x.place == .line && x.op == .store && !x.home)))

/-- PERFORM_HOME (05 R122): a G = 1 store or an atomic to a cacheable line. -/
def execPerformHome (t a : Nat) (s : State) : Out :=
  .next (s.stepAccess t a fun x => x.isIssued && x.writes && x.place == .line && (x.home || x.op != .store))

/-- COMPLETE (05 R122). -/
def execComplete (t a : Nat) (s : State) : Out := .next (s.stepAccess t a fun x => !x.isIssued)

/-- ATOMIC_UNIT_OPERATION (04 R112). -/
def execAtomicUnitOperation (t a : Nat) (s : State) : Out :=
  .next (s.stepAccess t a fun x => x.isIssued && x.place == .atom)

/-- A scheduled lazy step has been taken. -/
def State.unschedule (s : State) (p : Nat) (z : Lazy) : State :=
  s.setPart p { s.part p with delayed := (s.part p).delayed.erase z }

/-- FORWARD (05 R121): a scheduled one, or a write-back by replacement. -/
def execForward (p e l : Nat) (s : State) : Out :=
  .next ((s.forward p e (lineOf l)).unschedule p (.forward e (lineOf l)))

/-- REMOVE (05 R121). -/
def execRemove (p e l : Nat) (s : State) : Out :=
  .next ((s.remove p e (lineOf l)).unschedule p (.remove e (lineOf l)))

/-- L1_LINE_DROP (05 R121): a replacement. -/
def execL1LineDrop (c p l : Nat) (s : State) : Out :=
  .next (s.keepL1 c fun x => !(x.part == p && x.line == lineOf l))

/-- PLB_REFILL (04 R93): the region of an address enters the PLB of a core. -/
def execPlbRefill (c dom va : Nat) (s : State) : Out :=
  match s.ownerOfGranule (granuleOfCore c) with
  | some p =>
    match plbLookup s c p dom va with
    | .ok (_, s) => .next s
    | .error _ => .next s
  | none => .next s

/-- An access of a die's threads that waits for the translation of a line: one that writes before any other. -/
def State.walkFor (s : State) (p e line : Nat) : Option Access :=
  let waiting := s.threads.flatMap fun x =>
    if x.2.part = p ∧ dieOfCore (coreOfKey x.1) = e then
      x.2.acc.filter fun a => lineOf a.va == line && a.isIssued && !a.lost && s.lacksXlate x.1 x.2 a
    else []
  (waiting.find? (·.writes)).orElse fun _ => waiting.head?

/-- TRANSLATION_WALK (04 R105; 20 R424, R425): for an access that waits for it. -/
def execTranslationWalk (p e va : Nat) (s : State) : Out :=
  match s.walkFor p e (lineOf va) with
  | some a => .next (s.serveWalk p e a)
  | none => .next s

/-- Every copy and L1 line of a partition that was filled from a line of host memory goes, the copies as by remove, which forwards
their dirty bytes first (04 R109; 05 R121). -/
def State.dropHostLine (s : State) (p pa : Nat) : State :=
  let s1 := ((s.part p).copies.filter fun c => c.pa == pa).foldl (fun s c => s.remove p c.die c.line) s
  { s1 with cores := s1.cores.map fun e => (e.1, { e.2 with l1 := e.2.l1.filter fun l => !(l.part == p && l.pa == pa) }) }

/-- HOST_WRITE_TO_CACHED_LINE (04 R109): every device copy goes before the host's bytes land, which are at most one line. -/
def execHostWriteToCachedLine (p iova : Nat) (data : List Byte) (s : State) : Out :=
  let pa := hostPlace p iova
  let line := hostPlace p (lineOf iova)
  let s := s.dropHostLine p line
  .next ((s.store pa (data.take (64 - iova % 64))).wakeWatch line)

end Sys2Proof.Machine
end

