-- ==== Sys2Proof/Machine/System.lean ====
section
/-!
DEFINITION. TRAP, EBREAK, ERET, CSRR, CSRW and SLEEP (spec/08 R213 to R217, spec/17 R374).
-/

namespace Sys2Proof.Machine

/-- TRAP (08 R213): SYSCALL with its code; the resume address follows the instruction. -/
def execTrap (g : Guard) (hi lo : Fin 32) (s : State) : Out :=
  issue (.trap g hi lo) s fun _ _ => .trapAfter .syscall (BitVec.ofNat 64 (tenBits hi lo)) 0

/-- EBREAK (08 R213). -/
def execEbreak (g : Guard) (s : State) : Out := issue (.ebreak g) s fun _ _ => .trap .brk 0 0

/-- ERET (08 R214, 17 R374): a release at .p; ILLEGAL outside a handler. -/
def execEret (g : Guard) (s : State) : Out :=
  issue (.eret g) s fun s th =>
    match th.frames with
    | [] => .trap .illegal (BitVec.ofNat 64 (Instr.eret g).word) 0
    | f :: rest =>
      if decide (th.reload.length < imageSize f.xcount f.vcount)
          && s.frameWaits (coreOfKey s.cur) th.part (f.addr.toNat + 64 + th.reload.length) 1 then .settle
      else .done (s.returnFromTrap s.cur th f rest)

/-- A CSR access: PRIV where R175 denies it; one of FSTAT waits for the flags of earlier matrix instructions. -/
def csrRes (i : Instr) (n : Nat) (k : State → Thread → Res) (s : State) (th : Thread) : Res :=
  if csrDenied s th n then .trap .priv (BitVec.ofNat 64 i.word) (BitVec.ofNat 64 n)
  else if n = 0 ∧ s.owesFlags s.cur then
    (if th.acc.isEmpty then .done s.awaitUnit else .settle)
  else k s th

/-- CSRR (08 R217). -/
def execCsrr (g : Guard) (d : Reg) (hi lo : Fin 32) (s : State) : Out :=
  issue (.csrr g d hi lo) s (csrRes (.csrr g d hi lo) (tenBits hi lo) fun s th =>
    .done (s.setThread s.cur ((th.setX d (BitVec.ofNat 64 (csrRead s th (tenBits hi lo))) false).next 4)))

/-- CSRW (08 R217); one of S1INV completes when every L2 line of its range is gone (04 R111). -/
def execCsrw (g : Guard) (src : Reg) (hi lo : Fin 32) (s : State) : Out :=
  issue (.csrw g src hi lo) s (csrRes (.csrw g src hi lo) (tenBits hi lo) fun s th =>
    let n := tenBits hi lo
    let v := (th.getX src).toNat
    if n = 0x085 ∧ (csrWrite s th n v).s1invOpen th.part v then .done ((csrWrite s th n v).markBusy s.cur)
    else .done (csrWrite (s.setThread s.cur ((th.csrWrite n v).next 4)) th n v))

/-- SLEEP (08 R215). -/
def execSleep (g : Guard) (s : State) : Out :=
  issue (.sleep g) s fun s th =>
    if th.wait = .woken then .done (s.setThread s.cur ({ th with wait := .none }.next 4))
    else .done (s.setThread s.cur { th with wait := .sleep s.now })

end Sys2Proof.Machine
end

