-- ==== Sys2Proof/Machine/Vector.lean ====
section
/-!
DEFINITION. The vector instructions that stay within the registers (spec/10 R242 to R256, R259).
-/

namespace Sys2Proof.Machine

/-! ## Lanes (10 R242) -/

/-- The lanes of a v register at a width, lane 0 first. -/
def lanes (wid : Nat) (v : VWord) : List Nat := (List.range (256 / wid)).map fun i => v.toNat / 2 ^ (wid * i) % 2 ^ wid

/-- The number whose lanes are a list, lane 0 lowest. -/
def joinLanes (wid : Nat) : List Nat → Nat
  | [] => 0
  | x :: xs => x % 2 ^ wid + 2 ^ wid * joinLanes wid xs

/-- A v register from its low lanes; higher bits are zero. -/
def ofLanes (wid : Nat) (l : List Nat) : VWord := BitVec.ofNat 256 (joinLanes wid l)

/-- Lane width of an integer type. -/
def itypeWidth : IType → Nat
  | .i8 => 8
  | .i16 => 16
  | .i32 => 32
  | .i64 => 64

/-- Format code of a float type (10 R242, 06 R141). -/
def ftypeCode : FType → Nat
  | .f64 => 0x14
  | .f32 => 0x00
  | .f16 => 0x01
  | .bf16 => 0x02

/-- The IEEE format of a float type. -/
def ftypeFmt : FType → FloatFmt
  | .f64 => ⟨11, 52, 1023, true⟩
  | .f32 => ⟨8, 23, 127, true⟩
  | .f16 => ⟨5, 10, 15, true⟩
  | .bf16 => ⟨8, 7, 127, true⟩

/-- Lane width of a float type. -/
def ftypeWidth : FType → Nat
  | .f64 => 64
  | .f32 => 32
  | .f16 | .bf16 => 16

/-- A lane type as an integer type or a float type. -/
def ltypeSplit : LType → IType ⊕ FType
  | .i8 => .inl .i8
  | .i16 => .inl .i16
  | .i32 => .inl .i32
  | .i64 => .inl .i64
  | .f64 => .inr .f64
  | .f32 => .inr .f32
  | .f16 => .inr .f16
  | .bf16 => .inr .bf16

/-- Lane width of a lane type. -/
def ltypeWidth (t : LType) : Nat :=
  match ltypeSplit t with
  | .inl k => itypeWidth k
  | .inr k => ftypeWidth k

/-- A lane as a signed integer. -/
def laneInt (wid a : Nat) : Int := if 2 * a < 2 ^ wid then (a : Int) else (a : Int) - 2 ^ wid

/-- A signed integer as a lane, modulo 2^w. -/
def intLane (wid : Nat) (z : Int) : Nat := (z % 2 ^ wid).toNat

/-- A signed integer clamped to the lane's range. -/
def clampLane (wid : Nat) (z : Int) : Nat := intLane wid (max (-(2 ^ (wid - 1))) (min (2 ^ (wid - 1) - 1) z))

/-! ## Integer lanes (10 R246) -/

/-- V[D] ← f lane by lane over V[A] and V[B]. -/
def laneOp (i : Instr) (t : IType) (d a b : Reg) (f : Nat → Nat → Nat → Nat) (s : State) : Out :=
  issue i s (thenNext i fun th =>
    let wid := itypeWidth t
    th.setV d (ofLanes wid (List.zipWith (f wid) (lanes wid (th.getV a)) (lanes wid (th.getV b)))))

/-- VADD (10 R246). -/
def execVadd (g : Guard) (t : IType) (d a b : Reg) (s : State) : Out :=
  laneOp (.vadd g t d a b) t d a b (fun _ a b => a + b) s

/-- VSUB (10 R246). -/
def execVsub (g : Guard) (t : IType) (d a b : Reg) (s : State) : Out :=
  laneOp (.vsub g t d a b) t d a b (fun wid a b => a + 2 ^ wid - b) s

/-- VMUL (10 R246). -/
def execVmul (g : Guard) (t : IType) (d a b : Reg) (s : State) : Out :=
  laneOp (.vmul g t d a b) t d a b (fun _ a b => a * b) s

/-- VMIN (10 R246). -/
def execVmin (g : Guard) (t : IType) (d a b : Reg) (s : State) : Out :=
  laneOp (.vmin g t d a b) t d a b (fun wid a b => if laneInt wid a ≤ laneInt wid b then a else b) s

/-- VMAX (10 R246). -/
def execVmax (g : Guard) (t : IType) (d a b : Reg) (s : State) : Out :=
  laneOp (.vmax g t d a b) t d a b (fun wid a b => if laneInt wid b ≤ laneInt wid a then a else b) s

/-- VMINU (10 R246). -/
def execVminu (g : Guard) (t : IType) (d a b : Reg) (s : State) : Out :=
  laneOp (.vminu g t d a b) t d a b (fun _ a b => Nat.min a b) s

/-- VMAXU (10 R246). -/
def execVmaxu (g : Guard) (t : IType) (d a b : Reg) (s : State) : Out :=
  laneOp (.vmaxu g t d a b) t d a b (fun _ a b => Nat.max a b) s

/-- VAND (10 R246). -/
def execVand (g : Guard) (t : IType) (d a b : Reg) (s : State) : Out :=
  laneOp (.vand g t d a b) t d a b (fun _ a b => a &&& b) s

/-- VOR (10 R246). -/
def execVor (g : Guard) (t : IType) (d a b : Reg) (s : State) : Out :=
  laneOp (.vor g t d a b) t d a b (fun _ a b => a ||| b) s

/-- VXOR (10 R246). -/
def execVxor (g : Guard) (t : IType) (d a b : Reg) (s : State) : Out :=
  laneOp (.vxor g t d a b) t d a b (fun _ a b => a ^^^ b) s

/-- VSLL (10 R246). -/
def execVsll (g : Guard) (t : IType) (d a b : Reg) (s : State) : Out :=
  laneOp (.vsll g t d a b) t d a b (fun wid a b => a * 2 ^ (b % wid)) s

/-- VSRL (10 R246). -/
def execVsrl (g : Guard) (t : IType) (d a b : Reg) (s : State) : Out :=
  laneOp (.vsrl g t d a b) t d a b (fun wid a b => a / 2 ^ (b % wid)) s

/-- VSRA (10 R246). -/
def execVsra (g : Guard) (t : IType) (d a b : Reg) (s : State) : Out :=
  laneOp (.vsra g t d a b) t d a b (fun wid a b => intLane wid (laneInt wid a / 2 ^ (b % wid))) s

/-- VADDS (10 R246). -/
def execVadds (g : Guard) (t : IType) (d a b : Reg) (s : State) : Out :=
  laneOp (.vadds g t d a b) t d a b (fun wid a b => clampLane wid (laneInt wid a + laneInt wid b)) s

/-- VSUBS (10 R246). -/
def execVsubs (g : Guard) (t : IType) (d a b : Reg) (s : State) : Out :=
  laneOp (.vsubs g t d a b) t d a b (fun wid a b => clampLane wid (laneInt wid a - laneInt wid b)) s

/-! ## Floating lanes (10 R248, R249) -/

/-- Lanes with flags, written to V[D] in one update of FSTAT (06 R162). -/
def Thread.putLanes (th : Thread) (d : Reg) (wid : Nat) (rs : List (Nat × Raised)) : Thread :=
  (th.setV d (ofLanes wid (rs.map (·.1)))).raise (Raised.union (rs.map (·.2)))

/-- V[D] ← f lane by lane over V[A] and V[B], with flags. -/
def floatOp (i : Instr) (t : FType) (d a b : Reg) (f : FloatFmt → Nat → Nat → Nat × Raised) (s : State) : Out :=
  issue i s (thenNext i fun th =>
    let wid := ftypeWidth t
    th.putLanes d wid (List.zipWith (f (ftypeFmt t)) (lanes wid (th.getV a)) (lanes wid (th.getV b))))

/-- V[D] ← f lane by lane over V[A], with flags. -/
def floatOp1 (i : Instr) (t : FType) (d a : Reg) (f : FloatFmt → Nat → Nat × Raised) (s : State) : Out :=
  issue i s (thenNext i fun th =>
    th.putLanes d (ftypeWidth t) ((lanes (ftypeWidth t) (th.getV a)).map (f (ftypeFmt t))))

/-- a + b rounded once. -/
def fAdd (f : FloatFmt) (a b : Nat) : Nat × Raised := f.result ((f.value a).add (f.value b))

/-- a − b rounded once. -/
def fSub (f : FloatFmt) (a b : Nat) : Nat × Raised := f.result ((f.value a).add (f.value b).neg)

/-- a × b rounded once. -/
def fMul (f : FloatFmt) (a b : Nat) : Nat × Raised := f.result ((f.value a).mul (f.value b))

/-- VFADD (10 R248). -/
def execVfadd (g : Guard) (t : FType) (d a b : Reg) (s : State) : Out := floatOp (.vfadd g t d a b) t d a b fAdd s

/-- VFSUB (10 R248). -/
def execVfsub (g : Guard) (t : FType) (d a b : Reg) (s : State) : Out := floatOp (.vfsub g t d a b) t d a b fSub s

/-- VFMUL (10 R248). -/
def execVfmul (g : Guard) (t : FType) (d a b : Reg) (s : State) : Out := floatOp (.vfmul g t d a b) t d a b fMul s

/-- VFDIV (10 R248). -/
def execVfdiv (g : Guard) (t : FType) (d a b : Reg) (s : State) : Out :=
  floatOp (.vfdiv g t d a b) t d a b (fun f a b => f.quotient (f.value a) (f.value b)) s

/-- VFMIN (10 R248). -/
def execVfmin (g : Guard) (t : FType) (d a b : Reg) (s : State) : Out :=
  floatOp (.vfmin g t d a b) t d a b (fun f => f.extreme false) s

/-- VFMAX (10 R248). -/
def execVfmax (g : Guard) (t : FType) (d a b : Reg) (s : State) : Out :=
  floatOp (.vfmax g t d a b) t d a b (fun f => f.extreme true) s

/-- VFSQRT (10 R248). -/
def execVfsqrt (g : Guard) (t : FType) (d a : Reg) (s : State) : Out :=
  floatOp1 (.vfsqrt g t d a) t d a (fun f a => f.root (f.value a)) s

/-- VFABS (10 R248). -/
def execVfabs (g : Guard) (t : FType) (d a : Reg) (s : State) : Out :=
  floatOp1 (.vfabs g t d a) t d a (fun f a => (if (f.value a).isNan then f.nan else a % f.signBit, .none)) s

/-- VFNEG (10 R248). -/
def execVfneg (g : Guard) (t : FType) (d a : Reg) (s : State) : Out :=
  floatOp1 (.vfneg g t d a) t d a (fun f a => (if (f.value a).isNan then f.nan else a ^^^ f.signBit, .none)) s

/-- The fused form: the product and the addend, each negated first where its flag is set, summed exactly and rounded once
(10 R249). -/
def fFused (negP negD : Bool) (f : FloatFmt) (a b d : Nat) : Nat × Raised :=
  let (p, nv) := (f.value a).mul (f.value b)
  let sum := (if negP then p.neg else p).add (if negD then (f.value d).neg else f.value d)
  f.result (sum.1, sum.2 || nv)

/-- V[D] ← the fused form of V[A], V[B] and V[D]. -/
def fusedOp (i : Instr) (t : FType) (d a b : Reg) (negP negD : Bool) (s : State) : Out :=
  issue i s (thenNext i fun th =>
    let wid := ftypeWidth t
    let ab := List.zip (lanes wid (th.getV a)) (lanes wid (th.getV b))
    th.putLanes d wid
      (List.zipWith (fun ab d => fFused negP negD (ftypeFmt t) ab.1 ab.2 d) ab (lanes wid (th.getV d))))

/-- VFMA (10 R249). -/
def execVfma (g : Guard) (t : FType) (d a b : Reg) (s : State) : Out :=
  fusedOp (.vfma g t d a b) t d a b false false s

/-- VFMS (10 R249). -/
def execVfms (g : Guard) (t : FType) (d a b : Reg) (s : State) : Out :=
  fusedOp (.vfms g t d a b) t d a b true false s

/-- VFNMA (10 R249). -/
def execVfnma (g : Guard) (t : FType) (d a b : Reg) (s : State) : Out :=
  fusedOp (.vfnma g t d a b) t d a b true true s

/-- VFNMS (10 R249). -/
def execVfnms (g : Guard) (t : FType) (d a b : Reg) (s : State) : Out :=
  fusedOp (.vfnms g t d a b) t d a b false true s

/-! ## Conversions (10 R250 to R253) -/

/-- The element positions of a conversion (10 R250). -/
def cvtPositions (src dst : Nat) : Nat :=
  if cvtClass src dst = some .wide then 256 / Nat.max (fmtWidth src) (fmtWidth dst) else 32

/-- The roundings of `n` positions and the generator's state after them (06 R152). -/
def drawModes (sr : Bool) (n : Nat) (st : Word) : List Rounding × Word :=
  if sr then
    let (ds, st') := srDraws ((n + 1) / 2) st
    (ds.map .sr, st')
  else (List.replicate n .rne, st)

/-- The elements of consecutive v registers at a width. -/
def Thread.spanLanes (th : Thread) (first n wid : Nat) : List Nat :=
  (List.range n).flatMap fun i => lanes wid (th.getV (regNat (first + i)))

/-- Consecutive v registers written from elements of a width, the list cut by registers. -/
def Thread.putSpan (th : Thread) (first wid : Nat) : Nat → List Nat → Thread
  | 0, _ => th
  | n + 1, l => (th.setV (regNat first) (ofLanes wid (l.take (256 / wid)))).putSpan (first + 1) wid n (l.drop (256 / wid))

/-- Elements packed at a width in the low bytes of a register (06 R142). -/
def unpack (wid n : Nat) (v : VWord) : List Nat := (List.range n).map fun i => v.toNat / 2 ^ (wid * i) % 2 ^ wid

/-- The value of a bit-plane element gathered from 32-bit lanes (10 R253, 06 R148): plane 0 is the sign. -/
def planeValue (k : Nat) (v : VWord) (i : Nat) : Int :=
  let bits := (List.range k).map fun j => v.toNat / 2 ^ (32 * j + i) % 2
  let n : Nat := bits.foldl (fun acc b => 2 * acc + b) 0
  if 2 * n < 2 ^ k then (n : Int) else (n : Int) - 2 ^ k

/-- The conversion of VCVT on a thread, with each position's rounding. -/
def cvtThread (src dst : Nat) (d a : Reg) (modes : List Rounding) (th : Thread) : Thread :=
  let ws := fmtWidth src
  let wd := fmtWidth dst
  match cvtClass src dst with
  | some .wide =>
    let xs := (lanes ws (th.getV a)).take (cvtPositions src dst)
    th.putLanes d wd (List.zipWith (fun x m => convert dst m (fmtValue src x)) xs modes)
  | some .narrowFloat =>
    let xs := (th.spanLanes a.val (ws / 8) ws).map (fmtValue src)
    match floatFmt dst with
    | some f =>
      let (scale, cs, r) := encodeBlock dst f xs modes
      ((th.setV d (ofLanes wd cs)).setE 7 (BitVec.ofNat 64 scale)).raise r
    | none => th
  | some .narrowInt =>
    let xs := th.spanLanes a.val (ws / 8) ws
    th.putLanes d wd (List.zipWith (fun x m => convert dst m (fmtValue src x)) xs modes)
  | some .widenFloat =>
    let q := wbits (th.getE 7) 7 0
    let xs := unpack ws 32 (th.getV a)
    let rs := List.zipWith
      (fun x m => convert dst m (if q = 0xFF then .nan true else (fmtValue src x).scale ((q : Int) - 127))) xs modes
    (th.putSpan d.val wd (wd / 8) (rs.map (·.1))).raise (Raised.union (rs.map (·.2)))
  | some .widenInt =>
    let xs := unpack ws 32 (th.getV a)
    th.putSpan d.val wd (wd / 8) (xs.map fun x => intCode dst (intValue src x))
  | some .plane =>
    th.setV d (ofLanes 8 ((List.range 32).map fun i => intCode dst (planeValue ws (th.getV a) i)))
  | none => th

/-- VCVT (10 R250): a false guard still draws under .sr (10 R243). -/
def execVcvt (g : Guard) (sr : Bool) (src dst : Fin 32) (d a : Reg) (s : State) : Out :=
  let i : Instr := .vcvt g sr src dst d a
  let c := coreOfKey s.cur
  let k := s.core c
  let (modes, st) := drawModes sr (cvtPositions src.val dst.val) k.srstate
  let drawn (s : State) : State := if sr then s.setCore c { s.core c with srstate := st } else s
  issueSkip i s (fun s th => (drawn s).setThread s.cur (th.next i.len)) fun s th =>
    .done ((drawn s).setThread s.cur ((cvtThread src.val dst.val d a modes th).next i.len))

/-! ## Compares (10 R254) -/

/-- One lane's integer comparison. -/
def vccInt (cc : VCc) (wid a b : Nat) : Bool :=
  match cc with
  | .eq => a == b
  | .ne => a != b
  | .lt => decide (laneInt wid a < laneInt wid b)
  | .le => decide (laneInt wid a ≤ laneInt wid b)
  | .ltu => decide (a < b)
  | .leu => decide (a ≤ b)

/-- One lane's float comparison and NV. -/
def vccFloat (cc : VCc) (f : FloatFmt) (ca cb : Nat) : Bool × Bool :=
  let a := f.value ca
  let b := f.value cb
  let nan := a.isNan || b.isNan
  let sig := a.isSignalling || b.isSignalling
  match cc with
  | .eq => (!nan && a.cmp b == 0, sig)
  | .ne => (nan || a.cmp b != 0, sig)
  | .lt | .ltu => (!nan && decide (a.cmp b < 0), nan)
  | .le | .leu => (!nan && decide (a.cmp b ≤ 0), nan)

/-- The lane results of VCMP and whether NV is raised. -/
def vcmpLanes (cc : VCc) (t : LType) (va vb : VWord) : List Bool × Bool :=
  let wid := ltypeWidth t
  match ltypeSplit t with
  | .inl _ => (List.zipWith (vccInt cc wid) (lanes wid va) (lanes wid vb), false)
  | .inr k =>
    let rs := List.zipWith (vccFloat cc (ftypeFmt k)) (lanes wid va) (lanes wid vb)
    (rs.map (·.1), rs.any (·.2))

/-- VCMP (10 R254). -/
def execVcmp (g : Guard) (cc : VCc) (t : LType) (all : Bool) (pd : Reg8) (a b : Reg) (s : State) : Out :=
  issue (.vcmp g cc t all pd a b) s (thenNext (.vcmp g cc t all pd a b) fun th =>
    let (rs, nv) := vcmpLanes cc t (th.getV a) (th.getV b)
    (th.setP pd (if all then rs.all id else rs.any id)).raise { Raised.none with nv := nv })

/-! ## Lane moves (10 R255) -/

/-- VPERM (10 R255). -/
def execVperm (g : Guard) (d a b : Reg) (s : State) : Out :=
  issue (.vperm g d a b) s (thenNext (.vperm g d a b) fun th =>
    let src := lanes 8 (th.getV a)
    th.setV d (ofLanes 8 ((lanes 8 (th.getV b)).map fun i => (src[i]?).getD 0)))

/-- VBCAST (10 R255). -/
def execVbcast (g : Guard) (t : IType) (d a : Reg) (s : State) : Out :=
  issue (.vbcast g t d a) s (thenNext (.vbcast g t d a) fun th =>
    let wid := itypeWidth t
    th.setV d (ofLanes wid (List.replicate (256 / wid) (th.getX a).toNat)))

/-- VEXT (10 R255). -/
def execVext (g : Guard) (t : IType) (d a b : Reg) (s : State) : Out :=
  issue (.vext g t d a b) s (thenNext (.vext g t d a b) fun th =>
    let wid := itypeWidth t
    let l := lanes wid (th.getV a)
    th.setX d (BitVec.ofNat 64 ((l[(th.getX b).toNat % l.length]?).getD 0)) (th.getTaint b))

/-- VINS (10 R255). -/
def execVins (g : Guard) (t : IType) (d a b : Reg) (s : State) : Out :=
  issue (.vins g t d a b) s (thenNext (.vins g t d a b) fun th =>
    let wid := itypeWidth t
    let l := lanes wid (th.getV d)
    th.setV d (ofLanes wid (l.set ((th.getX b).toNat % l.length) (th.getX a).toNat)))

/-! ## Reductions (10 R256) -/

/-- One level of the float tree: neighbours combined. -/
def combinePairs (f : Nat → Nat → Nat × Raised) : List Nat → List Nat × Raised
  | a :: b :: rest =>
    let (c, r) := f a b
    let (cs, rs) := combinePairs f rest
    (c :: cs, r.or rs)
  | l => (l, .none)

/-- The float tree over `n` levels. -/
def combineTree (f : Nat → Nat → Nat × Raised) : Nat → List Nat → List Nat × Raised
  | 0, l => (l, .none)
  | n + 1, l =>
    let (l, r) := combinePairs f l
    let (l, r') := combineTree f n l
    (l, r.or r')

/-- A reduction: `fi` on the signed lanes with its result width, `ff` the combine of a float format. -/
def reduceOp (i : Instr) (t : LType) (d a : Reg) (fi : Nat → List Int → Nat × Nat)
    (ff : FloatFmt → Nat → Nat → Nat × Raised) (s : State) : Out :=
  issue i s (thenNext i fun th =>
    let wid := ltypeWidth t
    let l := lanes wid (th.getV a)
    match ltypeSplit t with
    | .inl _ =>
      let (w', r) := fi wid (l.map (laneInt wid))
      th.setV d (ofLanes w' [r])
    | .inr k =>
      let (l, r) := combineTree (ff (ftypeFmt k)) (Nat.log2 l.length) l
      (th.setV d (ofLanes wid (l.take 1))).raise r)

/-- The least or greatest of a list of lanes. -/
def extremeInt (greater : Bool) (l : List Int) : Int :=
  match l with
  | [] => 0
  | x :: xs => xs.foldl (fun a b => if greater then max a b else min a b) x

/-- VRED.SUM (10 R256). -/
def execVredSum (g : Guard) (t : LType) (d a : Reg) (s : State) : Out :=
  reduceOp (.vredSum g t d a) t d a (fun _ l => (64, intLane 64 (l.foldl (· + ·) 0))) fAdd s

/-- VRED.MIN (10 R256). -/
def execVredMin (g : Guard) (t : LType) (d a : Reg) (s : State) : Out :=
  reduceOp (.vredMin g t d a) t d a (fun wid l => (wid, intLane wid (extremeInt false l))) (fun f => f.extreme false) s

/-- VRED.MAX (10 R256). -/
def execVredMax (g : Guard) (t : LType) (d a : Reg) (s : State) : Out :=
  reduceOp (.vredMax g t d a) t d a (fun wid l => (wid, intLane wid (extremeInt true l))) (fun f => f.extreme true) s

/-! ## Stipple data (10 R259) -/

/-- The f32 format. -/
def f32 : FloatFmt := ⟨8, 23, 127, true⟩

/-- VMSUM (10 R259). -/
def execVmsum (g : Guard) (d a b : Reg) (s : State) : Out :=
  issue (.vmsum g d a b) s (thenNext (.vmsum g d a b) fun th =>
    if (th.getX b).getLsbD 0 then
      th.putLanes d 32 (List.zipWith (fAdd f32) (lanes 32 (th.getV d)) (lanes 32 (th.getV a)))
    else th)

/-- One lane of VRSCL: a × N ÷ c, rounded once. -/
def rescale (n c : Nat) (x : Nat) : Nat × Raised :=
  let (p, nv) := (f32.value x).mul (.fin false n 0)
  let (q, r) := f32.quotient p (.fin false c 0)
  (q, { r with nv := r.nv || nv })

/-- VRSCL (10 R259). -/
def execVrscl (g : Guard) (d a b : Reg) (s : State) : Out :=
  issue (.vrscl g d a b) s (thenNext (.vrscl g d a b) fun th =>
    let n := wbits (th.getX b) 63 32
    let c := wbits (th.getX b) 31 0
    if c = 0 then (th.setV d 0).raise { Raised.none with dz := true }
    else th.putLanes d 32 ((lanes 32 (th.getV a)).map (rescale n c)))

end Sys2Proof.Machine
end

