-- ==== Sys2Proof/Machine/Dispatch.lean ====
section
/-!
DEFINITION. exec: one arm per constructor of Instr, each a direct call of its meaning.
-/

namespace Sys2Proof.Machine

def exec (i : Instr) (s : State) : Host.Outcome State Fault Refusal :=
  match i with
  | .add g d a b => Sys2Proof.Machine.execAdd g d a b s
  | .sub g d a b => Sys2Proof.Machine.execSub g d a b s
  | .and g d a b => Sys2Proof.Machine.execAnd g d a b s
  | .or g d a b => Sys2Proof.Machine.execOr g d a b s
  | .xor g d a b => Sys2Proof.Machine.execXor g d a b s
  | .andn g d a b => Sys2Proof.Machine.execAndn g d a b s
  | .sll g d a b => Sys2Proof.Machine.execSll g d a b s
  | .srl g d a b => Sys2Proof.Machine.execSrl g d a b s
  | .sra g d a b => Sys2Proof.Machine.execSra g d a b s
  | .rol g d a b => Sys2Proof.Machine.execRol g d a b s
  | .min g d a b => Sys2Proof.Machine.execMin g d a b s
  | .max g d a b => Sys2Proof.Machine.execMax g d a b s
  | .minu g d a b => Sys2Proof.Machine.execMinu g d a b s
  | .maxu g d a b => Sys2Proof.Machine.execMaxu g d a b s
  | .mul g d a b => Sys2Proof.Machine.execMul g d a b s
  | .mulh g d a b => Sys2Proof.Machine.execMulh g d a b s
  | .mulhu g d a b => Sys2Proof.Machine.execMulhu g d a b s
  | .div g d a b => Sys2Proof.Machine.execDiv g d a b s
  | .divu g d a b => Sys2Proof.Machine.execDivu g d a b s
  | .rem g d a b => Sys2Proof.Machine.execRem g d a b s
  | .remu g d a b => Sys2Proof.Machine.execRemu g d a b s
  | .clz g d a => Sys2Proof.Machine.execClz g d a s
  | .ctz g d a => Sys2Proof.Machine.execCtz g d a s
  | .popc g d a => Sys2Proof.Machine.execPopc g d a s
  | .adx g sh d a b => Sys2Proof.Machine.execAdx g sh d a b s
  | .cmp g cc pd a b => Sys2Proof.Machine.execCmp g cc pd a b s
  | .cmpiSigned g cc pd a imm => Sys2Proof.Machine.execCmpiSigned g cc pd a imm s
  | .cmpiUnsigned g cc pd a imm => Sys2Proof.Machine.execCmpiUnsigned g cc pd a imm s
  | .madd g e d a b => Sys2Proof.Machine.execMadd g e d a b s
  | .msub g e d a b => Sys2Proof.Machine.execMsub g e d a b s
  | .bfx g e d a b => Sys2Proof.Machine.execBfx g e d a b s
  | .bfi g e d a b => Sys2Proof.Machine.execBfi g e d a b s
  | .addi g d a imm => Sys2Proof.Machine.execAddi g d a imm s
  | .andi g d a imm => Sys2Proof.Machine.execAndi g d a imm s
  | .ori g d a imm => Sys2Proof.Machine.execOri g d a imm s
  | .xori g d a imm => Sys2Proof.Machine.execXori g d a imm s
  | .slli g d a sh => Sys2Proof.Machine.execSlli g d a sh s
  | .srli g d a sh => Sys2Proof.Machine.execSrli g d a sh s
  | .srai g d a sh => Sys2Proof.Machine.execSrai g d a sh s
  | .li g d imm => Sys2Proof.Machine.execLi g d imm s
  | .lsh g d imm => Sys2Proof.Machine.execLsh g d imm s
  | .move g ed a => Sys2Proof.Machine.execMove g ed a s
  | .movx g d ea => Sys2Proof.Machine.execMovx g d ea s
  | .sel g p d a b => Sys2Proof.Machine.execSel g p d a b s
  | .br g off => Sys2Proof.Machine.execBr g off s
  | .call g off => Sys2Proof.Machine.execCall g off s
  | .jr g a => Sys2Proof.Machine.execJr g a s
  | .callr g a => Sys2Proof.Machine.execCallr g a s
  | .ret g => Sys2Proof.Machine.execRet g s
  | .loop g a len => Sys2Proof.Machine.execLoop g a len s
  | .loopi g count len => Sys2Proof.Machine.execLoopi g count len s
  | .pand g pd pa pb => Sys2Proof.Machine.execPand g pd pa pb s
  | .por g pd pa pb => Sys2Proof.Machine.execPor g pd pa pb s
  | .pxor g pd pa pb => Sys2Proof.Machine.execPxor g pd pa pb s
  | .pandn g pd pa pb => Sys2Proof.Machine.execPandn g pd pa pb s
  | .porn g pd pa pb => Sys2Proof.Machine.execPorn g pd pa pb s
  | .pget g d => Sys2Proof.Machine.execPget g d s
  | .pset g a => Sys2Proof.Machine.execPset g a s
  | .ld g w z d a disp => Sys2Proof.Machine.execLd g w z d a disp s
  | .ldAcq g sc w z d a disp => Sys2Proof.Machine.execLdAcq g sc w z d a disp s
  | .ldCon g w z d a disp => Sys2Proof.Machine.execLdCon g w z d a disp s
  | .st g w home src a disp => Sys2Proof.Machine.execSt g w home src a disp s
  | .stRel g sc w home src a disp => Sys2Proof.Machine.execStRel g sc w home src a disp s
  | .aadd g o sc home d a b => Sys2Proof.Machine.execAadd g o sc home d a b s
  | .amin g o sc home d a b => Sys2Proof.Machine.execAmin g o sc home d a b s
  | .amax g o sc home d a b => Sys2Proof.Machine.execAmax g o sc home d a b s
  | .aand g o sc home d a b => Sys2Proof.Machine.execAand g o sc home d a b s
  | .aor g o sc home d a b => Sys2Proof.Machine.execAor g o sc home d a b s
  | .axor g o sc home d a b => Sys2Proof.Machine.execAxor g o sc home d a b s
  | .aswap g o sc home d a b => Sys2Proof.Machine.execAswap g o sc home d a b s
  | .acas g o sc home d a b => Sys2Proof.Machine.execAcas g o sc home d a b s
  | .acasq g o sc d a b => Sys2Proof.Machine.execAcasq g o sc d a b s
  | .fence g sc => Sys2Proof.Machine.execFence g sc s
  | .sealR g a => Sys2Proof.Machine.execSealR g a s
  | .unsealR g a => Sys2Proof.Machine.execUnsealR g a s
  | .waitv g a b => Sys2Proof.Machine.execWaitv g a b s
  | .semp g k a => Sys2Proof.Machine.execSemp g k a s
  | .semv g k a => Sys2Proof.Machine.execSemv g k a s
  | .barw g ch d a b => Sys2Proof.Machine.execBarw g ch d a b s
  | .rwait g side h n => Sys2Proof.Machine.execRwait g side h n s
  | .radv g side h n => Sys2Proof.Machine.execRadv g side h n s
  | .cwb g a => Sys2Proof.Machine.execCwb g a s
  | .cinv g a => Sys2Proof.Machine.execCinv g a s
  | .iinv g a => Sys2Proof.Machine.execIinv g a s
  | .ifb g => Sys2Proof.Machine.execIfb g s
  | .ldr g d h b => Sys2Proof.Machine.execLdr g d h b s
  | .str g src h b => Sys2Proof.Machine.execStr g src h b s
  | .ctset g n a => Sys2Proof.Machine.execCtset g n a s
  | .ctclr g d n => Sys2Proof.Machine.execCtclr g d n s
  | .vadd g t d a b => Sys2Proof.Machine.execVadd g t d a b s
  | .vsub g t d a b => Sys2Proof.Machine.execVsub g t d a b s
  | .vmul g t d a b => Sys2Proof.Machine.execVmul g t d a b s
  | .vmin g t d a b => Sys2Proof.Machine.execVmin g t d a b s
  | .vmax g t d a b => Sys2Proof.Machine.execVmax g t d a b s
  | .vminu g t d a b => Sys2Proof.Machine.execVminu g t d a b s
  | .vmaxu g t d a b => Sys2Proof.Machine.execVmaxu g t d a b s
  | .vand g t d a b => Sys2Proof.Machine.execVand g t d a b s
  | .vor g t d a b => Sys2Proof.Machine.execVor g t d a b s
  | .vxor g t d a b => Sys2Proof.Machine.execVxor g t d a b s
  | .vsll g t d a b => Sys2Proof.Machine.execVsll g t d a b s
  | .vsrl g t d a b => Sys2Proof.Machine.execVsrl g t d a b s
  | .vsra g t d a b => Sys2Proof.Machine.execVsra g t d a b s
  | .vadds g t d a b => Sys2Proof.Machine.execVadds g t d a b s
  | .vsubs g t d a b => Sys2Proof.Machine.execVsubs g t d a b s
  | .vfadd g t d a b => Sys2Proof.Machine.execVfadd g t d a b s
  | .vfsub g t d a b => Sys2Proof.Machine.execVfsub g t d a b s
  | .vfmul g t d a b => Sys2Proof.Machine.execVfmul g t d a b s
  | .vfdiv g t d a b => Sys2Proof.Machine.execVfdiv g t d a b s
  | .vfmin g t d a b => Sys2Proof.Machine.execVfmin g t d a b s
  | .vfmax g t d a b => Sys2Proof.Machine.execVfmax g t d a b s
  | .vfsqrt g t d a => Sys2Proof.Machine.execVfsqrt g t d a s
  | .vfabs g t d a => Sys2Proof.Machine.execVfabs g t d a s
  | .vfneg g t d a => Sys2Proof.Machine.execVfneg g t d a s
  | .vfma g t d a b => Sys2Proof.Machine.execVfma g t d a b s
  | .vfms g t d a b => Sys2Proof.Machine.execVfms g t d a b s
  | .vfnma g t d a b => Sys2Proof.Machine.execVfnma g t d a b s
  | .vfnms g t d a b => Sys2Proof.Machine.execVfnms g t d a b s
  | .vcvt g sr src dst d a => Sys2Proof.Machine.execVcvt g sr src dst d a s
  | .vcmp g cc t all pd a b => Sys2Proof.Machine.execVcmp g cc t all pd a b s
  | .vperm g d a b => Sys2Proof.Machine.execVperm g d a b s
  | .vbcast g t d a => Sys2Proof.Machine.execVbcast g t d a s
  | .vext g t d a b => Sys2Proof.Machine.execVext g t d a b s
  | .vins g t d a b => Sys2Proof.Machine.execVins g t d a b s
  | .vredSum g t d a => Sys2Proof.Machine.execVredSum g t d a s
  | .vredMin g t d a => Sys2Proof.Machine.execVredMin g t d a s
  | .vredMax g t d a => Sys2Proof.Machine.execVredMax g t d a s
  | .vld g d a disp => Sys2Proof.Machine.execVld g d a disp s
  | .vst g src a disp => Sys2Proof.Machine.execVst g src a disp s
  | .vldr g d h side slot off => Sys2Proof.Machine.execVldr g d h side slot off s
  | .vstr g src h side slot off => Sys2Proof.Machine.execVstr g src h side slot off s
  | .vmsum g d a b => Sys2Proof.Machine.execVmsum g d a b s
  | .vrscl g d a b => Sys2Proof.Machine.execVrscl g d a b s
  | .mm g pair z u la a b vs => Sys2Proof.Machine.execMm g pair z u la a b vs s
  | .mmr g pair z u b vs => Sys2Proof.Machine.execMmr g pair z u b vs s
  | .latchA g a => Sys2Proof.Machine.execLatchA g a s
  | .latchB g a => Sys2Proof.Machine.execLatchB g a s
  | .zld g z a fmt => Sys2Proof.Machine.execZld g z a fmt s
  | .zst g z a fmt => Sys2Proof.Machine.execZst g z a fmt s
  | .zclr g z => Sys2Proof.Machine.execZclr g z s
  | .spawn g inl restart linked single d a b => Sys2Proof.Machine.execSpawn g inl restart linked single d a b s
  | .touch g d a => Sys2Proof.Machine.execTouch g d a s
  | .touchQ g d a => Sys2Proof.Machine.execTouchQ g d a s
  | .resolve g d a b => Sys2Proof.Machine.execResolve g d a b s
  | .poison g d a b => Sys2Proof.Machine.execPoison g d a b s
  | .fcan g d a => Sys2Proof.Machine.execFcan g d a s
  | .frel g a => Sys2Proof.Machine.execFrel g a s
  | .ftest g pd a => Sys2Proof.Machine.execFtest g pd a s
  | .fdec g a => Sys2Proof.Machine.execFdec g a s
  | .glaunch g d a b => Sys2Proof.Machine.execGlaunch g d a b s
  | .yield g => Sys2Proof.Machine.execYield g s
  | .texit g => Sys2Proof.Machine.execTexit g s
  | .send g d a b => Sys2Proof.Machine.execSend g d a b s
  | .sendc g d a => Sys2Proof.Machine.execSendc g d a s
  | .eng g d a => Sys2Proof.Machine.execEng g d a s
  | .rld g w d a => Sys2Proof.Machine.execRld g w d a s
  | .rldF g w d a => Sys2Proof.Machine.execRldF g w d a s
  | .rst g w a b => Sys2Proof.Machine.execRst g w a b s
  | .trap g hi lo => Sys2Proof.Machine.execTrap g hi lo s
  | .ebreak g => Sys2Proof.Machine.execEbreak g s
  | .eret g => Sys2Proof.Machine.execEret g s
  | .csrr g d hi lo => Sys2Proof.Machine.execCsrr g d hi lo s
  | .csrw g src hi lo => Sys2Proof.Machine.execCsrw g src hi lo s
  | .sleep g => Sys2Proof.Machine.execSleep g s
  | .cMov d a => Sys2Proof.Machine.execCMov d a s
  | .cAdd d a => Sys2Proof.Machine.execCAdd d a s
  | .cSub d a => Sys2Proof.Machine.execCSub d a s
  | .cAnd d a => Sys2Proof.Machine.execCAnd d a s
  | .cOr d a => Sys2Proof.Machine.execCOr d a s
  | .cXor d a => Sys2Proof.Machine.execCXor d a s
  | .cAddi d imm => Sys2Proof.Machine.execCAddi d imm s
  | .cLi d imm => Sys2Proof.Machine.execCLi d imm s
  | .cSlli d sh => Sys2Proof.Machine.execCSlli d sh s
  | .cSrli d sh => Sys2Proof.Machine.execCSrli d sh s
  | .cLd d a => Sys2Proof.Machine.execCLd d a s
  | .cSt src a => Sys2Proof.Machine.execCSt src a s
  | .cBr off => Sys2Proof.Machine.execCBr off s
  | .cRet => Sys2Proof.Machine.execCRet s
  | .cTouch d a => Sys2Proof.Machine.execCTouch d a s
  | .migrationArrival n => Sys2Proof.Machine.execMigrationArrival n s
  | .bind t a => Sys2Proof.Machine.execBind t a s
  | .perform0 t a => Sys2Proof.Machine.execPerform0 t a s
  | .performHome t a => Sys2Proof.Machine.execPerformHome t a s
  | .complete t a => Sys2Proof.Machine.execComplete t a s
  | .forward p e l => Sys2Proof.Machine.execForward p e l s
  | .remove p e l => Sys2Proof.Machine.execRemove p e l s
  | .l1LineDrop c p l => Sys2Proof.Machine.execL1LineDrop c p l s
  | .plbRefill c dom va => Sys2Proof.Machine.execPlbRefill c dom va s
  | .translationWalk p e va => Sys2Proof.Machine.execTranslationWalk p e va s
  | .atomicUnitOperation t a => Sys2Proof.Machine.execAtomicUnitOperation t a s
  | .hostWriteToCachedLine p iova data => Sys2Proof.Machine.execHostWriteToCachedLine p iova data s
  | .trapEntry t => Sys2Proof.Machine.execTrapEntry t s
  | .acklost t a => Sys2Proof.Machine.execAcklost t a s
  | .preempt t => Sys2Proof.Machine.execPreempt t s
  | .taskPreemption cl => Sys2Proof.Machine.execTaskPreemption cl s
  | .sleepTimeout t => Sys2Proof.Machine.execSleepTimeout t s
  | .sleepDepthDescent c => Sys2Proof.Machine.execSleepDepthDescent c s
  | .coreWake c => Sys2Proof.Machine.execCoreWake c s
  | .barrierArrival t => Sys2Proof.Machine.execBarrierArrival t s
  | .barrierCompletion t => Sys2Proof.Machine.execBarrierCompletion t s
  | .barrierTimeout t => Sys2Proof.Machine.execBarrierTimeout t s
  | .barrierWithdrawal t => Sys2Proof.Machine.execBarrierWithdrawal t s
  | .latchCompletion c latch => Sys2Proof.Machine.execLatchCompletion c latch s
  | .matrixUnitCompletion c => Sys2Proof.Machine.execMatrixUnitCompletion c s
  | .pass c south => Sys2Proof.Machine.execPass c south s
  | .messageReceipt c => Sys2Proof.Machine.execMessageReceipt c s
  | .handlerStart c => Sys2Proof.Machine.execHandlerStart c s
  | .injectionQueueDrain c => Sys2Proof.Machine.execInjectionQueueDrain c s
  | .dispatch cl => Sys2Proof.Machine.execDispatch cl s
  | .frameAllocation cl => Sys2Proof.Machine.execFrameAllocation cl s
  | .tileFetchCompletion cl tk => Sys2Proof.Machine.execTileFetchCompletion cl tk s
  | .runQueueAgeing cl n => Sys2Proof.Machine.execRunQueueAgeing cl n s
  | .workSteal cl => Sys2Proof.Machine.execWorkSteal cl s
  | .futureSpill cl => Sys2Proof.Machine.execFutureSpill cl s
  | .futureOperation cl k => Sys2Proof.Machine.execFutureOperation cl k s
  | .futureAnswerOrWake n k => Sys2Proof.Machine.execFutureAnswerOrWake n k s
  | .cancelNotice cl => Sys2Proof.Machine.execCancelNotice cl s
  | .exhaustionDetector cl => Sys2Proof.Machine.execExhaustionDetector cl s
  | .freeResourceReport cl => Sys2Proof.Machine.execFreeResourceReport cl s
  | .launchRecordRead p q => Sys2Proof.Machine.execLaunchRecordRead p q s
  | .queueMapping => Sys2Proof.Machine.execQueueMapping s
  | .recordAcceptance => Sys2Proof.Machine.execRecordAcceptance s
  | .sourcePriorityAgeing src => Sys2Proof.Machine.execSourcePriorityAgeing src s
  | .supervisorMove p => Sys2Proof.Machine.execSupervisorMove p s
  | .gangStart n => Sys2Proof.Machine.execGangStart n s
  | .completionNotice => Sys2Proof.Machine.execCompletionNotice s
  | .gangPreemption src => Sys2Proof.Machine.execGangPreemption src s
  | .copy x => Sys2Proof.Machine.execCopy x s
  | .copyr x => Sys2Proof.Machine.execCopyr x s
  | .gather n e => Sys2Proof.Machine.execGather n e s
  | .addv n => Sys2Proof.Machine.execAddv n s
  | .allgather x => Sys2Proof.Machine.execAllgather x s
  | .allreduce x => Sys2Proof.Machine.execAllreduce x s
  | .cut n => Sys2Proof.Machine.execCut n s
  | .engineCommandCompletion n => Sys2Proof.Machine.execEngineCommandCompletion n s
  | .stippleTimeout n => Sys2Proof.Machine.execStippleTimeout n s
  | .copyOnWrite p gr => Sys2Proof.Machine.execCopyOnWrite p gr s
  | .backgroundDrain p => Sys2Proof.Machine.execBackgroundDrain p s
  | .cutTimeout p => Sys2Proof.Machine.execCutTimeout p s
  | .activeMessage k => Sys2Proof.Machine.execActiveMessage k s
  | .codeCarryingMessage k => Sys2Proof.Machine.execCodeCarryingMessage k s
  | .readRequest k => Sys2Proof.Machine.execReadRequest k s
  | .readReply k => Sys2Proof.Machine.execReadReply k s
  | .write k => Sys2Proof.Machine.execWrite k s
  | .writeAcknowledgement k => Sys2Proof.Machine.execWriteAcknowledgement k s
  | .atomic k => Sys2Proof.Machine.execAtomic k s
  | .atomicReply k => Sys2Proof.Machine.execAtomicReply k s
  | .collectiveData k => Sys2Proof.Machine.execCollectiveData k s
  | .stippleBlock k => Sys2Proof.Machine.execStippleBlock k s
  | .errorReply k => Sys2Proof.Machine.execErrorReply k s
  | .partitionFence k => Sys2Proof.Machine.execPartitionFence k s
  | .management k => Sys2Proof.Machine.execManagement k s
  | .flitReceipt port f => Sys2Proof.Machine.execFlitReceipt port f s
  | .replay port seq => Sys2Proof.Machine.execReplay port seq s
  | .portRetrain port found => Sys2Proof.Machine.execPortRetrain port found s
  | .portDown port => Sys2Proof.Machine.execPortDown port s
  | .keyRollover port key => Sys2Proof.Machine.execKeyRollover port key s
  | .lqNotify p q v => Sys2Proof.Machine.execLqNotify p q v s
  | .lqCfgWrite p q v => Sys2Proof.Machine.execLqCfgWrite p q v s
  | .lqBaseWrite p q v => Sys2Proof.Machine.execLqBaseWrite p q v s
  | .lqDomWrite p q v => Sys2Proof.Machine.execLqDomWrite p q v s
  | .errclr p v => Sys2Proof.Machine.execErrclr p v s
  | .plbinv p v => Sys2Proof.Machine.execPlbinv p v s
  | .s1inv p v => Sys2Proof.Machine.execS1inv p v s
  | .tsareaWrite cl v => Sys2Proof.Machine.execTsareaWrite cl v s
  | .ringEnable cl n v => Sys2Proof.Machine.execRingEnable cl n v s
  | .ringDisable cl n v => Sys2Proof.Machine.execRingDisable cl n v s
  | .corecfgWrite c v => Sys2Proof.Machine.execCorecfgWrite c v s
  | .clssplitChange c => Sys2Proof.Machine.execClssplitChange c s
  | .mxownChange c => Sys2Proof.Machine.execMxownChange c s
  | .h3Change c => Sys2Proof.Machine.execH3Change c s
  | .srstateWrite c v => Sys2Proof.Machine.execSrstateWrite c v s
  | .fstatWrite t v => Sys2Proof.Machine.execFstatWrite t v s
  | .hdomFdomWrite p fabric v => Sys2Proof.Machine.execHdomFdomWrite p fabric v s
  | .fspillbaseWrite cl v => Sys2Proof.Machine.execFspillbaseWrite cl v s
  | .registerWrite p cl csr v => Sys2Proof.Machine.execRegisterWrite p cl csr v s
  | .coreKill c => Sys2Proof.Machine.execCoreKill c s
  | .selfTestCompletion c pass => Sys2Proof.Machine.execSelfTestCompletion c pass s
  | .channelTest gr failing => Sys2Proof.Machine.execChannelTest gr failing s
  | .mcheckDelivery p => Sys2Proof.Machine.execMcheckDelivery p s
  | .supervisorRelaunch p => Sys2Proof.Machine.execSupervisorRelaunch p s
  | .patrolScrubber found => Sys2Proof.Machine.execPatrolScrubber found s
  | .ageingMonitorCheck cl first second => Sys2Proof.Machine.execAgeingMonitorCheck cl first second s
  | .throttle celsius watts => Sys2Proof.Machine.execThrottle celsius watts s
  | .warmReset cause => Sys2Proof.Machine.execWarmReset cause s
  | .coldReset fuses image up => Sys2Proof.Machine.execColdReset fuses image up s
  | .retrainingRequest up => Sys2Proof.Machine.execRetrainingRequest up s
  | .partitionCreation sp => Sys2Proof.Machine.execPartitionCreation sp s
  | .teardown p => Sys2Proof.Machine.execTeardown p s
  | .spdmRequest q r => Sys2Proof.Machine.execSpdmRequest q r s
  | .imageSubmission p image => Sys2Proof.Machine.execImageSubmission p image s
  | .restoreRequest p r => Sys2Proof.Machine.execRestoreRequest p r s
  | .tdispRequest p run => Sys2Proof.Machine.execTdispRequest p run s
  | .tdispErrorEntry p => Sys2Proof.Machine.execTdispErrorEntry p s
  | .stopInterfaceRequest p => Sys2Proof.Machine.execStopInterfaceRequest p s
  | .dieToDieLinkFailure gr => Sys2Proof.Machine.execDieToDieLinkFailure gr s
  | .linkDown port => Sys2Proof.Machine.execLinkDown port s
  | .arbitrationGrant port => Sys2Proof.Machine.execArbitrationGrant port s

end Sys2Proof.Machine
end

