-- ==== Sys2Proof/Machine/Fetch.lean ====
section
/-!
DEFINITION. Instruction fetch (spec/05 R134, spec/18 R390), the choice of a core's slot (spec/03 R80), and the turn of a
core: fetch, decode and exec.
-/

namespace Sys2Proof.Machine

/-- The cause and words of a fetch fault at a halfword (18 R390, 20 R423)
(log entry 52: DEDUCED, unsafe). -/
def fetchFault (va : Nat) (r : Refused) : Failed :=
  ⟨r.cause, BitVec.ofNat 64 va, BitVec.ofNat 64 (descriptor 3 1 0 0 0 0 5 0 0 0 0 + r.bits)⟩

/-- The X check of a fetch, made for every halfword before any cache, with the ATOM right of the region (04 R93, 18 R390). -/
def fetchCheck (s : State) (c : Nat) (th : Thread) (va : Nat) : Except CheckFail (State × Bool) :=
  let fails (s : State) (r : Refused) : CheckFail := .trap s (fetchFault va r)
  match nameOf va with
  | .translated =>
    match plbLookup s c th.part th.dom va with
    | .error (.refused r) => .error (fails s r)
    | .error (.poisoned pa src) => .error (.poison (s.consumeFrom c pa src))
    | .error .waits => .error .waits
    | .ok (none, _) => .error (fails s (refuse 1 1))
    | .ok (some e, s) => if e.rights.x then .ok (s, e.rights.atom) else .error (fails s (refuse 1 2))
  | _ => .error (fails s (unfetchable (s.core c).clsNow va))

/-- A line of the core's instruction cache. -/
def Core.iline (k : Core) (p line : Nat) : Option CacheLine :=
  k.icache.find? fun l => l.part == p && l.line == line

/-- A line read for fetch: the instruction cache, or HOME, which fills the cache (05 R134). Reading a poisoned granule stops the
core (21 R441). -/
def fetchLine (s : State) (c p va : Nat) (atom : Bool) : Except CheckFail (State × List Byte) :=
  let line := lineOf va
  let die := dieOfCore c
  match (s.core c).iline p line with
  | some l => .ok (s, l.data)
  | none =>
    if s.hostWaits p die line then .error .waits
    else
      match if atom then (translate s p die line false).bind (·.allows false true) else linePage s p die line false with
      | .error r => .error (.trap (s.s2refusal p va r) (fetchFault va r))
      | .ok g =>
        let pa := g.place line
        let l : LineData := if g.atom then ⟨s.load pa 64, s.isPoisoned pa, pa, 5⟩ else s.homeData p line pa
        if l.bad then .error (.poison (s.consumeLine c l))
        else
          let s := if ((s.part p).held die line).isSome then s else s.fillXlate p die line g
          let s := if g.atom then s else s.fetchHome p line pa g.w
          .ok (s.setCore c { s.core c with icache := ⟨p, line, pa, l.data, false, false⟩ :: (s.core c).icache }, l.data)

/-- A halfword of a line. -/
def halfOf (data : List Byte) (va : Nat) : Nat := leNat ((data.drop (va % 64)).take 2)

/-- Fetch one halfword for the thread of a slot: one that was fetched ahead, or its line's (05 R134, 18 R390)
(log entry 51: DESIGN CHOICE, safe). -/
def fetchHalf (s : State) (t : Nat) (th : Thread) (va : Nat) : Except CheckFail (State × Nat) :=
  match fetchCheck s (coreOfKey t) th va with
  | .error e => .error e
  | .ok (s, atom) =>
    match th.ahead.find va with
    | some h => .ok (s, h)
    | none => (fetchLine s (coreOfKey t) th.part va atom).map fun x => (x.1, halfOf x.2 va)

/-- Fetch the bytes of the instruction at PC: two of a 16-bit form, four of a 32-bit one (07 R168). -/
def fetch (s : State) (t : Nat) (th : Thread) : Except CheckFail (State × List Byte) :=
  match fetchHalf s t th th.pc.toNat with
  | .error e => .error e
  | .ok (s, lo) =>
    if lo % 2 = 0 then .ok (s, leBytes 2 lo)
    else
      match fetchHalf s t th (th.pc.toNat + 2) with
      | .error e => .error e
      | .ok (s, hi) => .ok (s, leBytes 2 lo ++ leBytes 2 hi)

/-- The thread of a slot fetches a halfword ahead of its PC; one that cannot be fetched leaves nothing behind (05 R134, 18
R390). -/
def State.fetchAhead (s : State) (t va : Nat) : State :=
  match s.thread t with
  | none => s
  | some th =>
    match fetchHalf s t { th with ahead := [] } va with
    | .ok (s, h) => if va % 2 = 0 then s.setThread t { th with ahead := th.ahead.put va h } else s
    | .error _ => s

/-- A move of a cache or of a fetch (log entry 84: DESIGN CHOICE, safe). -/
def State.cacheMove (s : State) (m : CacheMove) : State :=
  match m with
  | .writeBack p die line => s.writeBackLine p die line
  | .evict p die line => s.evictHome p die line
  | .dropXlate p die va =>
    let k := s.part p
    s.setPart p { k with
      xcache := k.xcache.filter fun e => !(e.die == die && decide (e.page ≤ va) && decide (va < e.page + e.size)) }
  | .dropWalk p va => s.dropWalk p va (va + 1)
  | .dropIline c p line =>
    let k := s.core c
    s.setCore c { k with icache := k.icache.filter fun l => !(l.part == p && l.line == line) }
  | .fetchAhead t va => s.fetchAhead t va

/-- Whether a thread's slot is neither empty nor waiting, nor held by a trap. -/
def Thread.ready (th : Thread) : Bool := th.trap.isNone && !th.wait.rests

/-- Whether the gang of a thread is being stopped, and the thread runs no handler (17 R383). -/
def State.stopped (s : State) (th : Thread) : Bool :=
  !th.supervisor && ((th.gang.bind s.gangs.find).map (·.stopping)).getD false

/-- Whether a thread has to leave its slot, as the supervisor thread out of a reserved slot or a thread of a gang that is being
stopped: it issues nothing but an instruction whose wait is over (03 R73, 17 R383). -/
def State.leaving (s : State) (t : Nat) (th : Thread) : Bool :=
  !th.wait.answered
    && (s.stopped th || ((s.part th.part).moveTo.isSome && s.supervisorSlot th.part == some t))

/-- The slots of a core in the order of R80, from the one after the slot that issued last. -/
def Core.turns (k : Core) : List Nat := [1, 2, 3, 4].map fun i => (k.lastSlot + i) % 4

/-- The slots of a core from one that changes with every cycle, for steps that no instruction takes. -/
def fairTurns (now : Nat) : List Nat := [0, 1, 2, 3].map fun i => (now + i) % 4

/-- The first slot of a core, in some order, whose thread satisfies a test. -/
def State.pick (s : State) (c : Nat) (turns : List Nat) (p : Nat → Thread → Bool) : Option Nat :=
  (turns.find? fun j => ((s.thread (c * 4 + j)).map (p (c * 4 + j))).getD false).map (c * 4 + ·)

/-- Run the instruction at PC of the thread in a slot: fetch, decode, exec. A fetch from host memory waits for the interface
to reach RUN (15 R344), and one that meets poison runs nothing (21 R441). -/
def runSlot (s : State) (t : Nat) (th : Thread) : Host.Outcome State Fault Refusal :=
  let s := { s with cur := t }
  let at_ (s : State) (cause : Cause) (info info2 : Word) : State :=
    s.takeTrap t th ⟨cause, info, info2, th.pc.toNat, th.pc.toNat, false, false, false, none⟩
  match fetch s t th with
  | .error (.trap s e) => .next (at_ s e.cause e.info e.info2)
  | .error (.poison s) => .next s
  | .error .waits => .next (s.markWait t)
  | .ok (s, bs) =>
    match decode bs with
    | .ok (i, _) => exec i s
    | .error _ => .next (at_ s .illegal (BitVec.ofNat 64 (leNat bs)) 0)

/-- How the wait of a slot's instruction is noted in this cycle, none when it issues: a slot is not ready while it waits for an
outstanding load or a latch, for a busy unit, or on an allocation (03 R80; 19 R400). -/
def State.tryIssue (s : State) (t : Nat) (th : Thread) : Option (Nat × Nat) :=
  let th := { th with stuck := none }
  match runSlot (s.setThread t th) t th with
  | .next s' =>
    match s'.thread t with
    | some u => if th.wait == .alloc && u.wait == .alloc then some (th.pc.toNat + 1, s.now) else u.stuck
    | none => none
  | _ => none

/-- What the instruction of a slot waits for in this cycle is noted: with the cycle from which it has waited for it (20 R437). -/
def State.noteWait (s : State) (t : Nat) : State :=
  match s.thread t with
  | some th =>
    if th.ready && !s.leaving t th then
      let since (m : Nat × Nat) : Nat × Nat :=
        match th.stuck with
        | some w => if w.1 = m.1 then w else m
        | none => m
      s.setThread t { th with stuck := (s.tryIssue t th).map since }
    else s
  | none => s

/-- The cycle counts against a core's rest while one of its slots is active (03 R83). -/
def State.noteActive (s : State) (c : Nat) : State :=
  if (coreSlots c).any s.slotActive then s.setCore c { s.core c with restSince := s.now } else s

/-- A slot of a core issues (03 R80; 19 R403). -/
def State.noteIssue (s : State) (t : Nat) (th : Thread) : State :=
  let k := s.core (coreOfKey t)
  s.setCore (coreOfKey t) { k with
    depth := 0, lastSlot := t % 4, lastIssue := if th.wait = .alloc then k.lastIssue else s.now }

/-- A cycle of a core in which nothing issues: a slot that is active takes a step of what its instruction waits for, a held trap
whose accesses have settled is entered, or a thread that is held takes one step of its accesses. -/
def State.idleStep (s : State) (c : Nat) : Host.Outcome State Fault Refusal :=
  let turns := fairTurns s.now
  let run (t : Nat) (f : Thread → Host.Outcome State Fault Refusal) : Host.Outcome State Fault Refusal :=
    ((s.thread t).map f).getD (.next s)
  match s.pick c turns (fun t th => th.ready && !s.leaving t th),
    s.pick c turns (fun _ th => th.trap.isSome && th.settled),
    s.pick c turns (fun _ th => !th.acc.isEmpty) with
  | some t, _, _ => run t (runSlot s t)
  | none, some t, _ => run t fun th => .next (s.enterHeld t th)
  | none, none, some t => .next (s.progress t)
  | none, none, none => .next s

/-- A core's turn (03 R80): the next slot whose instruction issues runs it. A core that has consumed poison issues no more (21
R442). -/
def runCore (s : State) (c : Nat) : Host.Outcome State Fault Refusal :=
  if (s.core c).killed || (s.core c).consumed.isSome then .next s
  else
    let s := (coreSlots c).foldl State.noteWait (s.noteActive c)
    match s.pick c (s.core c).turns (fun t th => th.ready && !s.leaving t th && th.stuck.isNone) with
    | some t =>
      match s.thread t with
      | some th => runSlot (s.noteIssue t th) t th
      | none => .next s
    | none => s.idleStep c

/-- One turn of the machine (log entry 2: DESIGN CHOICE, safe). -/
def turn (s : State) : Host.Outcome State Fault Refusal :=
  match s.schedule with
  | [] => runCore s (coreOfKey s.cur)
  | x :: rest =>
    let s := { s with schedule := rest }
    match x with
    | .event i => if i.isWord then .next s else exec i s
    | .core c => runCore s c
    | .tick n => .next (s.pass n)
    | .cache m => .next (s.cacheMove m)
    | .homeOp k => .next (s.homeTurn k)
    | .host q => .next (s.hostTurn q)
    | .error e => .next (s.hardwareError e)

/-- Entry address of the program that `placeWord` sets up. -/
def placedPc : Nat := 0x10000

/-- A package in which partition 0 has been created on granule 0 and its supervisor thread launched (17 R363) with the
instruction `w` at its entry, the region that covers it in the PLB and its page in the slice translation cache
(log entry 8: DESIGN CHOICE, safe). -/
def placeWord (s : State) (w : Nat) : State :=
  let rights : Rights := ⟨true, true, true, true, false, false⟩
  let k : Part := { s.part 0 with
    live := true, granules := [0], domains := 1, memSize := 2 ^ 30
    xcache := (List.range 4).map fun sl => ⟨0, sl, placedPc, 4096, placedPc, true, false, 4⟩ }
  let c : Core := { s.core 0 with
    plb := [⟨0, 0, 0, 56, rights, false⟩], icache := [], killed := false, lastSlot := 3 }
  let th := Thread.fresh (BitVec.ofNat 56 placedPc) .supervisor 0 0 .all
  let s := ((s.setPart 0 k).setCore 0 c).setThread 0 th
  { s.store placedPc (leBytes 16 w) with cur := 0, schedule := [] }

end Sys2Proof.Machine
end

