-- ==== Sys2Proof/Machine/Step.lean ====
section
/-!
DEFINITION. step, one turn of the machine with its cycle, and the placing of one instruction for the host.
-/

namespace Sys2Proof.Machine

/-- One step: a cycle passes and the machine takes one turn
(log entry 3: DESIGN CHOICE, unsafe). -/
def step (s : State) : Host.Outcome State Fault Refusal := turn (s.pass 1)

/-- The state with the instruction of `nbits` bits `w` where step fetches next (log entry 8: DESIGN CHOICE, safe): a supervisor
launch of partition 0 in slot 0 of core 0, its page translated, its code in memory. -/
def State.withFetchWord (s : State) (_nbits w : Nat) : State := placeWord s w

end Sys2Proof.Machine
end

