-- ==== Sys2Proof/Safety.lean ====
section
/-!
DEFINITION. What counts as a safe run, no step of which stops, and the conditions under which an instruction of the
current thread executes normally (spec/18 R386).
-/

namespace Sys2Proof.Safety

open Sys2Proof.Machine

/-- A state from which the next step does not stop. -/
def Live (s : State) : Prop := ∃ s', step s = .next s'

/-- What the current thread's instruction reads, writes and implies. -/
def usesAt (i : Instr) (s : State) (th : Thread) : Uses := usesOf i s.pkg.node (coreOfKey s.cur) th

/-- The current thread executes an instruction normally: its guard holds, it waits for no access of the thread, no
deferred cause is due, and it passes ILLEGAL, RESOURCE, PRIV and MXOWNER (18 R386 rows 1 to 4). -/
structure Issues (i : Instr) (s : State) (th : Thread) : Prop where
  thread : s.thread s.cur = some th
  guard : th.guardTrue i.guard = true
  hazard : th.hazard (usesAt i s th) = false
  drain : ((usesAt i s th).drain.map th.completeAt).getD true = true
  delivers : th.delivers (usesAt i s th) = false
  assigned : (usesAt i s th).unassigned = false
  declared : resourceCheck th (usesAt i s th) = none
  privilege : (usesAt i s th).priv = true → th.supervisor = true
  matrixSlot : (usesAt i s th).mx = true → s.cur % 4 = (s.core (coreOfKey s.cur)).mxNow

end Sys2Proof.Safety
end

