-- ==== Sys2Proof/Certificates/Slice0/Obligations.lean ====
section
/-!
DEFINITION. The statements for the provers, with the tables and predicates they are written in.
-/

namespace Sys2Proof.Claims

open Sys2Proof.Machine Sys2Proof.Safety

/-! ## What the scalar instructions write -/

/-- The mask of w one bits. -/
def ones (w : Nat) : Word := BitVec.ofNat 64 (2 ^ w - 1)

/-- Field width of BFX and BFI (08 R201). -/
def width64 (e : Word) : Nat := Nat.min (e.toNat % 128) 64

/-- X[D] of BFX (08 R201). -/
def bfxResult (e a b : Word) : Word :=
  let w := width64 e
  let f := (a >>> (b.toNat % 64)) &&& ones w
  if e.getLsbD 7 && decide (0 < w) && f.getLsbD (w - 1) then f ||| ~~~ones w else f

/-- X[D] of BFI (08 R201). -/
def bfiResult (e d a b : Word) : Word :=
  let m := ones (width64 e) <<< (b.toNat % 64)
  (d &&& ~~~m) ||| ((a <<< (b.toNat % 64)) &&& m)

/-- X[D] and TAINT[D] of the instructions that write one x register from registers and an immediate, and nothing else
(07 R171; 08 R195, R199, R201 to R204, R212). -/
def scalarWrite (th : Thread) (i : Instr) : Option (Reg × Word × Bool) :=
  let x := th.getX
  let t := th.getTaint
  let rr (d a b : Reg) (v : Word) : Option (Reg × Word × Bool) := some (d, v, t a || t b)
  match i with
  | .add _ d a b => rr d a b (x a + x b)
  | .sub _ d a b => rr d a b (x a - x b)
  | .and _ d a b => rr d a b (x a &&& x b)
  | .or _ d a b => rr d a b (x a ||| x b)
  | .xor _ d a b => rr d a b (x a ^^^ x b)
  | .andn _ d a b => rr d a b (x a &&& ~~~x b)
  | .sll _ d a b => rr d a b (x a <<< ((x b).toNat % 64))
  | .srl _ d a b => rr d a b (x a >>> ((x b).toNat % 64))
  | .sra _ d a b => rr d a b ((x a).sshiftRight ((x b).toNat % 64))
  | .rol _ d a b => rr d a b ((x a).rotateLeft ((x b).toNat % 64))
  | .min _ d a b => rr d a b (if (x b).slt (x a) then x b else x a)
  | .max _ d a b => rr d a b (if (x a).slt (x b) then x b else x a)
  | .minu _ d a b => rr d a b (if x b < x a then x b else x a)
  | .maxu _ d a b => rr d a b (if x a < x b then x b else x a)
  | .mul _ d a b => rr d a b (x a * x b)
  | .mulh _ d a b => rr d a b ((BitVec.ofInt 128 ((x a).toInt * (x b).toInt)).extractLsb' 64 64)
  | .mulhu _ d a b => rr d a b ((BitVec.ofNat 128 ((x a).toNat * (x b).toNat)).extractLsb' 64 64)
  | .div _ d a b => rr d a b (if x b = 0 then BitVec.allOnes 64 else (x a).sdiv (x b))
  | .divu _ d a b => rr d a b (if x b = 0 then BitVec.allOnes 64 else x a / x b)
  | .rem _ d a b => rr d a b (if x b = 0 then x a else x a - x b * (x a).sdiv (x b))
  | .remu _ d a b => rr d a b (if x b = 0 then x a else x a - x b * (x a / x b))
  | .clz _ d a => some (d, BitVec.ofNat 64 (64 - Nat.size (x a).toNat), t a)
  | .ctz _ d a => some (d, BitVec.ofNat 64 (Nat.findGreatest (fun k => 2 ^ k ∣ (x a).toNat) 64), t a)
  | .popc _ d a => some (d, BitVec.ofNat 64 ((List.finRange 64).countP fun k => (x a).getLsbD k.val), t a)
  | .adx _ sh d a b => rr d a b (x a + x b * BitVec.ofNat 64 (2 ^ sh.val))
  | .madd _ e d a b => rr d a b (th.getE e + x a * x b)
  | .msub _ e d a b => rr d a b (th.getE e - x a * x b)
  | .bfx _ e d a b => rr d a b (bfxResult (th.getE e) (x a) (x b))
  | .bfi _ e d a b => some (d, bfiResult (th.getE e) (x d) (x a) (x b), t d || t a || t b)
  | .addi _ d a imm => some (d, x a + imm.signExtend 64, t a)
  | .andi _ d a imm => some (d, x a &&& imm.signExtend 64, t a)
  | .ori _ d a imm => some (d, x a ||| imm.zeroExtend 64, t a)
  | .xori _ d a imm => some (d, x a ^^^ imm.zeroExtend 64, t a)
  | .slli _ d a sh => some (d, x a <<< sh.toNat, t a)
  | .srli _ d a sh => some (d, x a >>> sh.toNat, t a)
  | .srai _ d a sh => some (d, (x a).sshiftRight sh.toNat, t a)
  | .li _ d imm => some (d, imm.signExtend 64, false)
  | .lsh _ d imm => some (d, (x d <<< 16) ||| imm.zeroExtend 64, t d)
  | .movx _ d ea => some (d, th.getE ea, false)
  | .sel _ p d a b => rr d a b (if th.getP p then x a else x b)
  | .pget _ d => some (d, BitVec.ofNat 64 (((List.finRange 8).map fun k => if th.getP k then 2 ^ k.val else 0).sum), false)
  | .cMov d a => some (d, x a, t a)
  | .cAdd d a => rr d d a (x d + x a)
  | .cSub d a => rr d d a (x d - x a)
  | .cAnd d a => rr d d a (x d &&& x a)
  | .cOr d a => rr d d a (x d ||| x a)
  | .cXor d a => rr d d a (x d ^^^ x a)
  | .cAddi d imm => some (d, x d + imm.signExtend 64, t d)
  | .cLi d imm => some (d, imm.signExtend 64, false)
  | .cSlli d sh => some (d, x d <<< sh.toNat, t d)
  | .cSrli d sh => some (d, x d >>> sh.toNat, t d)
  | _ => none

/-- P[pd] of the instructions that write one predicate register and nothing else (08 R200, R212). -/
def predicateWrite (th : Thread) (i : Instr) : Option (Reg8 × Bool) :=
  let x := th.getX
  let p := th.getP
  let cc (c : Cc) (a b : Word) : Bool :=
    match c with
    | .eq => a == b
    | .ne => !(a == b)
    | .lt => a.slt b
    | .ge => !a.slt b
    | .ltu => a.ult b
    | .geu => !a.ult b
  match i with
  | .cmp _ c pd a b => some (pd, cc c (x a) (x b))
  | .cmpiSigned _ .eq pd a imm => some (pd, cc .eq (x a) (imm.signExtend 64))
  | .cmpiSigned _ .ne pd a imm => some (pd, cc .ne (x a) (imm.signExtend 64))
  | .cmpiSigned _ .lt pd a imm => some (pd, cc .lt (x a) (imm.signExtend 64))
  | .cmpiSigned _ .ge pd a imm => some (pd, cc .ge (x a) (imm.signExtend 64))
  | .cmpiUnsigned _ .ltu pd a imm => some (pd, cc .ltu (x a) (imm.zeroExtend 64))
  | .cmpiUnsigned _ .geu pd a imm => some (pd, cc .geu (x a) (imm.zeroExtend 64))
  | .pand _ pd pa pb => some (pd, p pa && p pb)
  | .por _ pd pa pb => some (pd, p pa || p pb)
  | .pxor _ pd pa pb => some (pd, Bool.xor (p pa) (p pb))
  | .pandn _ pd pa pb => some (pd, p pa && !p pb)
  | .porn _ pd pa pb => some (pd, p pa || !p pb)
  | _ => none

/-! ## What the vector instructions write -/

/-- Lane k, of w bits, of a v register (10 R242). -/
def lane (w k : Nat) (v : VWord) : BitVec w := v.extractLsb' (w * k) w

/-- The value clamped to the signed range of w bits (10 R246). -/
def clamped (w : Nat) (z : Int) : BitVec w := BitVec.ofInt w (max (-(2 ^ (w - 1))) (min (2 ^ (w - 1) - 1) z))

/-- The lane results of the integer lane instructions (10 R246): type, destination, operands, and a lane of the result
from the lanes of V[A] and V[B]. -/
def integerLanes (i : Instr) : Option (IType × Reg × Reg × Reg × ((w : Nat) → BitVec w → BitVec w → BitVec w)) :=
  match i with
  | .vadd _ t d a b => some (t, d, a, b, fun _ x y => x + y)
  | .vsub _ t d a b => some (t, d, a, b, fun _ x y => x - y)
  | .vmul _ t d a b => some (t, d, a, b, fun _ x y => x * y)
  | .vmin _ t d a b => some (t, d, a, b, fun _ x y => if y.slt x then y else x)
  | .vmax _ t d a b => some (t, d, a, b, fun _ x y => if x.slt y then y else x)
  | .vminu _ t d a b => some (t, d, a, b, fun _ x y => if y.ult x then y else x)
  | .vmaxu _ t d a b => some (t, d, a, b, fun _ x y => if x.ult y then y else x)
  | .vand _ t d a b => some (t, d, a, b, fun _ x y => x &&& y)
  | .vor _ t d a b => some (t, d, a, b, fun _ x y => x ||| y)
  | .vxor _ t d a b => some (t, d, a, b, fun _ x y => x ^^^ y)
  | .vsll _ t d a b => some (t, d, a, b, fun w x y => x <<< (y.toNat % w))
  | .vsrl _ t d a b => some (t, d, a, b, fun w x y => x >>> (y.toNat % w))
  | .vsra _ t d a b => some (t, d, a, b, fun w x y => x.sshiftRight (y.toNat % w))
  | .vadds _ t d a b => some (t, d, a, b, fun w x y => clamped w (x.toInt + y.toInt))
  | .vsubs _ t d a b => some (t, d, a, b, fun w x y => clamped w (x.toInt - y.toInt))
  | _ => none

/-- The lane results of the floating lane instructions (10 R248, R249): format, destination, operands, and a lane of the
result, with its flags, from the lanes of V[A], V[B] and V[D]. -/
def floatLanes (i : Instr) : Option (FType × Reg × Reg × Reg × (FloatFmt → Nat → Nat → Nat → Nat × Raised)) :=
  match i with
  | .vfadd _ t d a b => some (t, d, a, b, fun f x y _ => f.result ((f.value x).add (f.value y)))
  | .vfsub _ t d a b => some (t, d, a, b, fun f x y _ => f.result ((f.value x).add (f.value y).neg))
  | .vfmul _ t d a b => some (t, d, a, b, fun f x y _ => f.result ((f.value x).mul (f.value y)))
  | .vfdiv _ t d a b => some (t, d, a, b, fun f x y _ => f.quotient (f.value x) (f.value y))
  | .vfmin _ t d a b => some (t, d, a, b, fun f x y _ => f.extreme false x y)
  | .vfmax _ t d a b => some (t, d, a, b, fun f x y _ => f.extreme true x y)
  | .vfsqrt _ t d a => some (t, d, a, a, fun f x _ _ => f.root (f.value x))
  | .vfabs _ t d a => some (t, d, a, a, fun f x _ _ => (if (f.value x).isNan then f.nan else x % f.signBit, .none))
  | .vfneg _ t d a =>
    some (t, d, a, a, fun f x _ _ =>
      (if (f.value x).isNan then f.nan else if x < f.signBit then x + f.signBit else x - f.signBit, .none))
  | .vfma _ t d a b => some (t, d, a, b, fun f x y z => fFused false false f x y z)
  | .vfms _ t d a b => some (t, d, a, b, fun f x y z => fFused true false f x y z)
  | .vfnma _ t d a b => some (t, d, a, b, fun f x y z => fFused true true f x y z)
  | .vfnms _ t d a b => some (t, d, a, b, fun f x y z => fFused false true f x y z)
  | _ => none

/-- The flags of n lanes together, as FSTAT bits (06 R161, R162). -/
def flagsOf (n : Nat) (f : Nat → Raised) : BitVec 7 := (List.range n).foldl (fun acc k => acc ||| (f k).toBits) 0

/-- The reduction tree of 10 R256: node k of height h combines nodes 2k and 2k + 1 of height h - 1. -/
def reduceTree (f : Nat → Nat → Nat × Raised) (leaf : Nat → Nat) : Nat → Nat → Nat × Raised
  | 0, k => (leaf k, .none)
  | h + 1, k =>
    let (a, ra) := reduceTree f leaf h (2 * k)
    let (b, rb) := reduceTree f leaf h (2 * k + 1)
    let (c, r) := f a b
    (c, (ra.or rb).or r)

/-- The value of a finite code as a rational number; zero for the others. -/
def valueQ (v : Machine.Num) : ℚ :=
  match v with
  | .fin n m e => (if n then -1 else 1) * m * (2 : ℚ) ^ e
  | _ => 0

/-- Whether a value is finite. -/
def isFinite (v : Machine.Num) : Bool :=
  match v with
  | .fin .. => true
  | _ => false

/-- Whether one value lies below another; a NaN has no place in the order (06 R143). -/
def lessThan (a b : Machine.Num) : Prop :=
  match a, b with
  | .fin .., .fin .. => valueQ a < valueQ b
  | .inf m, .inf n => m = true ∧ n = false
  | .inf m, .fin .. => m = true
  | .fin .., .inf n => n = false
  | _, _ => False

/-- Lane k of a block that lies in consecutive v registers (10 R252). -/
def spanLane (w k : Nat) (th : Thread) (first : Reg) : BitVec w :=
  lane w (k % (256 / w)) (th.getV (regNat (first.val + k / (256 / w))))

/-- The integer whose bits, the sign first, are bit k of the first n 32-bit lanes of a v register (06 R148; 10 R253). -/
def gatheredPlanes (n k : Nat) (v : VWord) : Int :=
  let m : Nat := ((List.range n).map fun j => if (lane 32 j v).getLsbD k then 2 ^ (n - 1 - j) else 0).sum
  if m < 2 ^ (n - 1) then m else (m : Int) - 2 ^ n

/-- Whether the greatest magnitude of 32 values lies in the binade of 2 ^ t (06 R154). -/
def topBinade (v : Nat → Machine.Num) (t : Int) : Prop :=
  (∀ k : Nat, k < 32 → |valueQ (v k)| < 2 ^ (t + 1)) ∧ ∃ k : Nat, k < 32 ∧ 2 ^ t ≤ |valueQ (v k)|

/-- A block of 32 values written in a narrow format: its scale, its element codes and the flags it raises (06 R154). -/
def BlockEncoded (fmt : Nat) (f : FloatFmt) (x : Nat → Machine.Num) (mode : Nat → Rounding) (scale : Nat) (code : Nat → Nat)
    (flags : BitVec 7) : Prop :=
  let converts (y : Nat → Machine.Num) : Prop :=
    (∀ k : Nat, k < 32 → code k = (convert fmt (mode k) (y k)).1) ∧
    flags = flagsOf 32 fun k => (convert fmt (mode k) (y k)).2
  ((∃ k : Nat, k < 32 ∧ (x k).isNan = true) → scale = 0xFF ∧ (∀ k : Nat, k < 32 → code k = 0) ∧ flags = 0x10) ∧
  ((∀ k : Nat, k < 32 → isFinite (x k) = true ∧ valueQ (x k) = 0) →
    scale = 0 ∧ (∀ k : Nat, k < 32 → code k = (convert fmt .rne (x k)).1) ∧ flags = 0) ∧
  ((∀ k : Nat, k < 32 → (x k).isNan = false) → (∃ k : Nat, k < 32 ∧ isFinite (x k) = false) →
    scale = 254 ∧ converts fun k => (x k).scale (-127)) ∧
  (∀ t : Int, (∀ k : Nat, k < 32 → isFinite (x k) = true) → topBinade x t →
    let eb : Int := max (-127) (min 127 (t - f.emax))
    (scale : Int) = eb + 127 ∧ converts fun k => (x k).scale (-eb))

/-! ## What the matrix unit computes -/

/-- K and the element formats of A and of B of a pair (07 R187; 11 R263). -/
def pairShape (pair : Nat) (u : Bool) : Nat × Nat × Nat :=
  match pair with
  | 0 => (16, 0x00, 0x00)
  | 1 => (32, 0x01, 0x01)
  | 2 => (32, 0x02, 0x02)
  | 3 => (64, 0x03, 0x03)
  | 4 => (64, 0x03, 0x04)
  | 5 => (64, 0x04, 0x03)
  | 6 => (64, 0x04, 0x04)
  | 7 => (64, 0x05, 0x05)
  | 8 => (64, 0x06, 0x06)
  | 9 => (128, 0x07, 0x07)
  | 10 => (64, 0x03, 0x07)
  | 11 => (64, 0x07, 0x03)
  | 12 => (64, if u then 0x0A else 0x09, 0x09)
  | 13 => (128, if u then 0x0C else 0x0B, 0x0B)
  | 14 => (32, 0x08, 0x08)
  | n => (64, n - 2, 0x09)

/-- Element e, of w bits, of packed bytes (06 R142). -/
def packedElement (w e : Nat) (bs : List Byte) : Nat := leNat bs / 2 ^ (w * e) % 2 ^ w

/-- The integer of a w-bit code, two's complement unless it is unsigned (06 R146). -/
def codeInt (w : Nat) (unsigned : Bool) (code : Nat) : Int :=
  if unsigned then code else (BitVec.ofNat w code).toInt

/-- Element e of a bit-plane operand of n planes of 256 bytes: its bits are those of the planes, the sign first (06 R148). -/
def planesInt (n e : Nat) (plane : Nat → List Byte) : Int :=
  let m : Nat := ((List.range n).map fun j => if (leNat (plane j)).testBit e then 2 ^ (n - 1 - j) else 0).sum
  if m < 2 ^ (n - 1) then m else (m : Int) - 2 ^ n

/-- The sign of an infinite product (06 R157). -/
def infiniteProduct (a b : Machine.Num) : Option Bool :=
  match a, b with
  | .inf x, .inf y => some (x != y)
  | .inf x, .fin n m _ | .fin n m _, .inf x => if m = 0 then none else some (x != n)
  | _, _ => none

/-- Whether a product is an infinity times zero (06 R157). -/
def zeroTimesInfinity (a b : Machine.Num) : Bool :=
  match a, b with
  | .inf _, .fin _ m _ | .fin _ m _, .inf _ => m == 0
  | _, _ => false

/-- What a block of n products adds to a float accumulator, and whether its own special values set NV (06 R156, R157). -/
def BlockAdds (n : Nat) (a b : Nat → Machine.Num) (sa sb : Nat) (c : Machine.Num) (nv : Bool) : Prop :=
  let nan : Prop := ∃ k : Nat, k < n ∧ ((a k).isNan = true ∨ (b k).isNan = true)
  let signals : Prop := ∃ k : Nat, k < n ∧ ((a k).isSignalling = true ∨ (b k).isSignalling = true)
  let infinite (neg : Bool) : Prop := ∃ k : Nat, k < n ∧ infiniteProduct (a k) (b k) = some neg
  let invalid : Prop :=
    (∃ k : Nat, k < n ∧ zeroTimesInfinity (a k) (b k) = true) ∨ (infinite true ∧ infinite false)
  (sa = 0xFF ∨ sb = 0xFF → c.isNan = true ∧ nv = true) ∧
  (sa ≠ 0xFF → sb ≠ 0xFF →
    (nan ∨ invalid → c.isNan = true) ∧ (nan → ¬ invalid → (nv = true ↔ signals)) ∧ (¬ nan → invalid → nv = true) ∧
    (¬ nan → ¬ invalid → nv = false ∧ (∀ neg : Bool, infinite neg → c = .inf neg) ∧
      (¬ infinite true → ¬ infinite false → isFinite c = true ∧
        valueQ c = ((List.range n).map fun k => valueQ (a k) * valueQ (b k)).sum * 2 ^ ((sa : Int) - 127) * 2 ^ ((sb : Int) - 127) ∧
        (valueQ c = 0 → ∃ e : Int, c = .fin false 0 e))))

/-- A float accumulator element over its blocks of n products, in ascending K, each added with one rounding: its code after, and the
flags it raises (06 R156, R157, R161). -/
def AccumulatesFloat (blocks n : Nat) (a b : Nat → Machine.Num) (sa sb : Nat → Nat) (z : Nat) (out : Nat × Raised) : Prop :=
  ∃ (zs : Nat → Nat) (rs : Nat → Raised), zs 0 = z ∧ zs blocks = out.1 ∧ out.2.toBits = flagsOf blocks rs ∧
    ∀ i : Nat, i < blocks → ∃ (c : Machine.Num) (nv : Bool),
      BlockAdds n (fun k => a (n * i + k)) (fun k => b (n * i + k)) (sa i) (sb i) c nv ∧
      let sum := (FloatFmt.value ⟨8, 23, 127, true⟩ (zs i)).add c
      (zs (i + 1), rs i) = FloatFmt.result ⟨8, 23, 127, true⟩ (sum.1, nv || sum.2)

/-- An integer accumulator element over its blocks of n products, each added exactly and clamped: its code after, and the flags it
raises (06 R156, R158). -/
def AccumulatesInt (blocks n : Nat) (a b : Nat → Int) (z : Nat) (out : Nat × Raised) : Prop :=
  ∃ zs : Nat → BitVec 32, zs 0 = BitVec.ofNat 32 z ∧ (zs blocks).toNat = out.1 ∧
    let sum (i : Nat) : Int := (zs i).toInt + ((List.range n).map fun k => a (n * i + k) * b (n * i + k)).sum
    (∀ i : Nat, i < blocks → zs (i + 1) = clamped 32 (sum i)) ∧
    ∃ isat : Bool, out.2 = { Raised.none with isat := isat } ∧
      (isat = true ↔ ∃ i : Nat, i < blocks ∧ (clamped 32 (sum i)).toInt ≠ sum i)

/-! ## Accesses -/

/-- An access to an address passes the waits and the checks of 09 R218 and reaches a place of this node: the state after
the checks, and what they found. -/
structure Reaches (i : Instr) (s : State) (th : Thread) (ea size align desc : Nat) (form : Form) (t : State) (c : Checked) :
    Prop where
  idle : th.wait = .none
  fresh : th.overlapDeferred (s.reach ea) size = false
  clear : th.overlapWait (s.reach ea) size = false
  check : checkAccess s s.cur th i ea size align desc form = .ok (t, c)
  stays : t.migratesTo th c.va c.homerun form.writes = none
  here : c.place ≠ .remote

/-- Base plus a signed displacement counted in access-size units (09 R218). -/
def address {n : Nat} (base : Word) (disp : BitVec n) (bytes : Nat) : Nat :=
  (base + disp.signExtend 64 * BitVec.ofNat 64 bytes).toNat

/-- The address of an LDR or STR in a ring that admits its slot and offset (04 R100; 09 R234). -/
def slotAddr (s : State) (th : Thread) (h : Handle) (b : Reg) (side : RSide) : Option Nat :=
  let r := s.ringOf th h
  let slot := wbits (th.getX b) 63 32
  let off := wbits (th.getX b) 31 0
  if r.en = true ∧ slot ≤ r.slotm1 ∧ off + 8 ≤ 2 ^ r.slotsz ∧ off % 8 = 0 then some (ringAddr th.homeCluster r side slot off)
  else none

/-- The scalar loads: form, destination, address, and whether the address register carries taint (09 R222, R234; 07 R171;
05 R130). -/
def loadOf (s : State) (th : Thread) (i : Instr) : Option (LoadForm × Reg × Nat × Bool) :=
  match i with
  | .ld _ w z d a disp =>
    some (⟨widthBytes w, z, .plain, .t, false⟩, d, address (th.getX a) disp (widthBytes w), th.getTaint a)
  | .ldAcq _ sc w z d a disp =>
    some (⟨widthBytes w, z, .acq, sc, false⟩, d, address (th.getX a) disp (widthBytes w), th.getTaint a)
  | .ldCon _ w z d a disp =>
    some (⟨widthBytes w, z, .plain, .t, true⟩, d, address (th.getX a) disp (widthBytes w), th.getTaint a)
  | .cLd d a => some (⟨8, false, .plain, .t, false⟩, d, (th.getX a).toNat, th.getTaint a)
  | .ldr _ d h b => (slotAddr s th h b .filled).map fun ea => (⟨8, false, .plain, .t, false⟩, d, ea, th.getTaint b)
  | _ => none

/-- The scalar stores: form, address, and the register stored (09 R224, R234; 07 R171). -/
def storeOf (s : State) (th : Thread) (i : Instr) : Option (StoreForm × Nat × Reg) :=
  match i with
  | .st _ w home x a disp =>
    some (⟨widthBytes w, home, .plain, .t, [x.val], [], 0, x.val⟩, address (th.getX a) disp (widthBytes w), x)
  | .stRel _ sc w home x a disp =>
    some (⟨widthBytes w, home, .rel, sc, [x.val], [], 0, x.val⟩, address (th.getX a) disp (widthBytes w), x)
  | .cSt x a => some (⟨8, false, .plain, .t, [x.val], [], 0, x.val⟩, (th.getX a).toNat, x)
  | .str _ x h b => (slotAddr s th h b .free).map fun ea => (⟨8, false, .plain, .t, [x.val], [], 0, x.val⟩, ea, x)
  | _ => none

/-- The 64-bit atomics: operation number, ordering, scope, G, and registers (09 R226). -/
def atomicOf (i : Instr) : Option (Nat × AOrd × AScope × Bool × Reg × Reg × Reg) :=
  match i with
  | .aadd _ o sc g d a b => some (0, o, sc, g, d, a, b)
  | .amin _ o sc g d a b => some (1, o, sc, g, d, a, b)
  | .amax _ o sc g d a b => some (2, o, sc, g, d, a, b)
  | .aand _ o sc g d a b => some (3, o, sc, g, d, a, b)
  | .aor _ o sc g d a b => some (4, o, sc, g, d, a, b)
  | .axor _ o sc g d a b => some (5, o, sc, g, d, a, b)
  | .aswap _ o sc g d a b => some (6, o, sc, g, d, a, b)
  | .acas _ o sc g d a b => some (7, o, sc, g, d, a, b)
  | _ => none

/-- What a 64-bit atomic leaves at its place, from the old value, the operand and the comparand (09 R226). -/
def atomicLeaves (op : Nat) (old b cmp : Word) : Word :=
  match op with
  | 0 => old + b
  | 1 => if b.slt old then b else old
  | 2 => if old.slt b then b else old
  | 3 => old &&& b
  | 4 => old ||| b
  | 5 => old ^^^ b
  | 6 => b
  | _ => if old = cmp then b else old

/-- What the destination of an access makes of the bytes it receives: an x register the extended value, a pair its two halves, a v
register the bytes from an offset on; x0 discards them (09 R219, R222, R226, R227; 10 R257). -/
def Receives (dst : Dst) (bs : List Byte) (th u : Thread) : Prop :=
  match dst with
  | .x d _ sg taint => u = th.setX d (extend bs sg) taint
  | .pair d taint =>
    u = (th.setX d (BitVec.ofNat 64 (leNat (bs.take 8))) taint).setX (regNat (d.val + 1)) (BitVec.ofNat 64 (leNat (bs.drop 8)))
      taint
  | .v d off => u = { th with v := u.v } ∧ (∀ r : Reg, r ≠ d → u.getV r = th.getV r) ∧
    ∀ i : Nat, i < 32 → lane 8 i (u.getV d) =
      if off ≤ i ∧ i < off + bs.length then (bs[i - off]?).getD 0 else lane 8 i (th.getV d)
  | _ => u = th

/-- A place whose bytes lie in memory: a tile store's or a CLS bank's (05 R118; 04 R86, R87). -/
def plainPlace (pa n : Nat) : Prop := pa + n ≤ 2 ^ 53 ∨ (2 ^ 53 ≤ pa ∧ pa < 2 ^ 60 ∧ (pa - 2 ^ 53) % 2 ^ 26 + n ≤ 0x40000)

/-- What the registers that a CSRR reads hold, field by field, with their reserved and write-only bits zero (00 R9; 07 R161, R177, R179,
R180, R182; 17 R376; 22 R464). -/
def CsrLayouts (s : State) (th : Thread) : Prop :=
  let k := s.part th.part
  let f (n hi lo : Nat) : Nat := wbits (BitVec.ofNat 64 (csrRead s th n)) hi lo
  csrRead s th 0x000 = th.fstat.toNat ∧ csrRead s th 0x001 = (s.core (coreOfKey s.cur)).srstate.toNat ∧
  (s.pkg.node < 2 ^ 17 → s.cur < 2 ^ 15 → th.part < 32 →
    f 0x002 63 47 = s.pkg.node ∧ f 0x002 46 34 = coreOfKey s.cur ∧ f 0x002 33 32 = s.cur % 4 ∧
    f 0x002 31 30 = (match th.kind with
      | .task => 0
      | .gang => 1
      | .handler => 2
      | .supervisor => 3) ∧ f 0x002 29 5 = 0 ∧ f 0x002 4 0 = th.part) ∧
  (th.spanLen ≤ 1024 → th.spanOff < 1024 → th.ownOff < 1024 → th.ownLen ≤ 1024 →
    f 0x003 63 42 = 0 ∧ f 0x003 41 31 = th.spanLen ∧ f 0x003 30 21 = th.spanOff ∧ f 0x003 20 11 = th.ownOff ∧
    f 0x003 10 0 = th.ownLen) ∧
  csrRead s th 0x004 = th.frameBase.toNat ∧ csrRead s th 0x005 = s.now ∧ csrRead s th 0x020 = th.clsel.toNat ∧
  csrRead s th 0x080 = k.domBase ∧ csrRead s th 0x081 = k.hdom ∧ csrRead s th 0x082 = k.fdom ∧ csrRead s th 0x083 = 0 ∧
  csrRead s th 0x084 = k.s1root ∧ csrRead s th 0x085 = 0 ∧ csrRead s th 0x087 = k.job ∧ csrRead s th 0x160 = 0 ∧
  (th.frames = [] → csrRead s th 0x100 = 0 ∧ csrRead s th 0x101 = 0) ∧
  (∀ (x : TFrame) (rest : List TFrame), th.frames = x :: rest → rest.length ≤ 1 → x.vcount ≤ 32 → x.xcount ≤ 32 →
    f 0x100 63 28 = 0 ∧ f 0x100 27 22 = x.vcount ∧ f 0x100 21 16 = x.xcount ∧ f 0x100 15 8 = x.cause.code ∧
    f 0x100 7 5 = 0 ∧ f 0x100 4 3 = x.kind.code ∧ f 0x100 2 2 = bit x.ppriv ∧ f 0x100 1 0 = rest.length + 1 ∧
    csrRead s th 0x101 = x.addr.toNat) ∧
  csrRead s th 0x108 = k.stvec ∧ csrRead s th 0x109 = k.tfBase ∧
  (k.quantum < 2 ^ 16 → k.twait < 2 ^ 16 →
    f 0x10A 63 49 = 0 ∧ f 0x10A 48 48 = bit k.gpe ∧ f 0x10A 47 32 = 0 ∧ f 0x10A 31 16 = k.quantum ∧ f 0x10A 15 0 = k.twait) ∧
  csrRead s th 0x10B = k.gsaveBase ∧ csrRead s th 0x10C = k.gsaveSize ∧
  ∀ i : Nat, i < 22 → csrRead s th (0x140 + i) = (k.counters.find i).getD 0

/-- The state in which a partition takes a packet: it has left its gateway and is counted (15 R335, 16 R358). -/
def takenFrom (s : State) (k : Packet) (p : Nat) : State := (s.leaveGate k).arriving p k

/-- A packet of another node that its partition takes at once (15 R329, 16 R354, 22 R463): it waits at a gateway of this node, and
no held packet goes before it; it is for this node, of a live job that is not ending, of its generation; and no cut of the
partition holds it; the channel log of a cut that has been taken fits its reserve (16 R467). -/
structure Admitted (s : State) (k : Packet) (p : Nat) : Prop where
  gate : (s.gateOf k).isSome = true
  first : s.heldFirst k = false
  node : endNode k.dest = s.pkg.node
  job : s.partOfJob k.job = some p
  live : (s.part p).ending = false
  pgen : k.pgen = (s.part p).pgen
  free : s.holdsPacket p k = false
  fits : (takenFrom s k p).checkLog p = takenFrom s k p

/-- The same for a read, a write or an atomic, whose partition's memory is not contained (21 R450). -/
structure AdmittedAccess (s : State) (k : Packet) (p : Nat) : Prop extends Admitted s k p where
  clear : s.contained p = false

/-- The image of a thread stands in the park area of a cluster as that of its task n, in whole 64-byte units (03 R78, 07
R167). -/
def ImageParked (t : State) (cl n : Nat) (th : Thread) : Prop :=
  ∃ us : List Nat, (t.cluster cl).parkAt.find n = some us ∧ us.length = th.parkUnits ∧
    ∀ (i u j : Nat) (v : Byte), us[i]? = some u → j < 64 → (th.image th.hdr.xcount th.hdr.vcount)[64 * i + j]? = some v →
      t.mem.read (tilePlace cl ((t.cluster cl).ringArea * 2048 + 64 * u) + j) = v

/-- The park area of a cluster lies within its tile store (04 R98). -/
def ParkAreaFits (s : State) (cl : Nat) : Prop := cl < 384 ∧ (s.cluster cl).ringArea + (s.cluster cl).parkArea ≤ 1024

/-- The little-endian 64-bit word number i of a packet's payload. -/
def payloadWord (k : Packet) (i : Nat) : Word := BitVec.ofNat 64 (leNat ((k.payload.drop (8 * i)).take 8))

/-- The instruction or operation answers a next state of which a property holds. -/
def Answers (i : Instr) (s : State) (P : State → Prop) : Prop := ∃ t : State, exec i s = .next t ∧ P t

end Sys2Proof.Claims

open Sys2Proof Sys2Proof.Machine Sys2Proof.Safety Sys2Proof.Claims

/-! ## Encoding -/

/-- 07 R168 to R188: every well-formed instruction word is read back from its bytes, whatever follows them. -/
def Obligations.DecodeOfEncode : Prop :=
  ∀ (i : Instr) (rest : List Byte), i.isWord = true → i.wf = true → decode (encode i ++ rest) = .ok (i, i.len)

/-- 07 R168 to R188: what the decoder accepts is a well-formed instruction word, and its bytes are the only ones that
encode it. -/
def Obligations.EncodeOfDecode : Prop :=
  ∀ (bs : List Byte) (i : Instr) (n : Nat),
    decode bs = .ok (i, n) → i.isWord = true ∧ i.wf = true ∧ n = i.len ∧ bs.take n = encode i

/-! ## Scalar instructions -/

/-- 08 R199, R201 to R204, R212 and 07 R171: each of these instructions writes its x register with the value and the taint
of the table, steps to the next instruction, and changes nothing else. -/
def Obligations.ScalarResults : Prop :=
  ∀ (i : Instr) (s : State) (th : Thread) (d : Reg) (v : Word) (t : Bool),
    scalarWrite th i = some (d, v, t) → Issues i s th →
      exec i s = .next (s.setThread s.cur ((th.setX d v t).next i.len))

/-- 08 R200, R204, R212: each of these instructions writes its predicate register, MOVE writes E[ed] and PSET the predicates p1
to p7; each changes nothing else. -/
def Obligations.PredicateAndMoveResults : Prop :=
  (∀ (i : Instr) (s : State) (th : Thread) (pd : Reg8) (v : Bool),
    predicateWrite th i = some (pd, v) → Issues i s th →
      exec i s = .next (s.setThread s.cur ((th.setP pd v).next 4))) ∧
  (∀ (g : Guard) (ed : Reg8) (a : Reg) (s : State) (th : Thread), Issues (.move g ed a) s th →
    exec (.move g ed a) s = .next (s.setThread s.cur ({ th with e := th.e.set ed (th.getX a) }.next 4))) ∧
  (∀ (g : Guard) (a : Reg) (s : State) (th : Thread), Issues (.pset g a) s th →
    ∃ p : BitVec 8,
      exec (.pset g a) s = .next (s.setThread s.cur ({ th with p := p }.next 4)) ∧
      ∀ n : Reg8, { th with p := p }.getP n = (n == 0 || (th.getX a).getLsbD n.val))

/-- 07 R163: x0 reads zero with no taint and discards writes, p0 reads 1 and discards writes; a write of any other x or p
register is read back, changes no other register of its file, and nothing else of the thread. -/
def Obligations.RegisterFile : Prop :=
  ∀ (th : Thread) (d r : Reg) (w : Word) (t : Bool) (pd q : Reg8) (b : Bool),
    th.getX 0 = 0 ∧ th.getTaint 0 = false ∧ th.getP 0 = true ∧
    th.setX 0 w t = th ∧ th.setP 0 b = th ∧
    (d ≠ 0 → (th.setX d w t).getX r = (if r = d then w else th.getX r)) ∧
    (d ≠ 0 → (th.setX d w t).getTaint r = (if r = d then t else th.getTaint r)) ∧
    (pd ≠ 0 → (th.setP pd b).getP q = (if q = pd then b else th.getP q)) ∧
    (th.setX d w t) = { th with x := (th.setX d w t).x, taint := (th.setX d w t).taint } ∧
    (th.setP pd b) = { th with p := (th.setP pd b).p }

/-- 08 R210: the program counter and the loop state after an instruction of `len` bytes that takes no control. -/
def Obligations.NextStepsTheLoops : Prop :=
  ∀ (th : Thread) (len : Nat),
    let next := th.pc + BitVec.ofNat 56 len
    let end1 := th.lend - 2 * th.dend.zeroExtend 56
    let start1 := end1 - 2 * (th.llen1.zeroExtend 56 + 1)
    let start0 := th.lend - 2 * (th.llen0.zeroExtend 56 + 1)
    let level0 (u : Thread) : Thread :=
      if u.lact0 ∧ next = u.lend then
        (if u.lcount0 - 1 > 0 then { u with lcount0 := u.lcount0 - 1, pc := start0 }
         else { u with lcount0 := u.lcount0 - 1, lact0 := false, pc := next })
      else { u with pc := next }
    th.next len =
      { (if th.lact1 ∧ next = end1 then
          (if th.lcount1 - 1 > 0 then { th with lcount1 := th.lcount1 - 1, pc := start1 }
           else if th.dend ≠ 0 then { th with lcount1 := th.lcount1 - 1, lact1 := false, pc := next }
           else level0 { th with lcount1 := th.lcount1 - 1, lact1 := false })
        else level0 th) with stuck := none }

/-- 08 R209, R210: a loop level that holds a count of n + 1 returns to the start of its body n times and then leaves it: level 0, also
around a level 1 whose end is not its own, and level 1, whose last pass falls to level 0 where the two ends are one. -/
def Obligations.CountedLoopPasses : Prop :=
  ∀ (n : Nat) (th : Thread), n < 2 ^ 24 - 1 →
    (th.lact0 = true → (th.lact1 = true → th.dend ≠ 0) → th.lcount0 = BitVec.ofNat 24 (n + 1) →
      let pass (k : Nat) : Thread := Nat.iterate (fun u : Thread => u.step u.lend) k th
      (∀ k : Nat, 0 < k → k ≤ n →
        (pass k).pc = th.start0 ∧ (pass k).lact0 = true ∧ (pass k).lcount0 = BitVec.ofNat 24 (n + 1 - k) ∧
        (pass k).lact1 = th.lact1 ∧ (pass k).lcount1 = th.lcount1) ∧
      (pass (n + 1)).pc = th.lend ∧ (pass (n + 1)).lact0 = false ∧ (pass (n + 1)).lact1 = th.lact1) ∧
    (th.lact1 = true → th.lcount1 = BitVec.ofNat 24 (n + 1) →
      let pass (k : Nat) : Thread := Nat.iterate (fun u : Thread => u.step u.end1) k th
      (∀ k : Nat, 0 < k → k ≤ n →
        (pass k).pc = th.start1 ∧ (pass k).lact1 = true ∧ (pass k).lcount1 = BitVec.ofNat 24 (n + 1 - k) ∧
        (pass k).lact0 = th.lact0 ∧ (pass k).lcount0 = th.lcount0) ∧
      (pass (n + 1)).lact1 = false ∧
      (th.dend ≠ 0 →
        (pass (n + 1)).pc = th.end1 ∧ (pass (n + 1)).lact0 = th.lact0 ∧ (pass (n + 1)).lcount0 = th.lcount0) ∧
      (th.dend = 0 → th.lact0 = true →
        (pass (n + 1)).lcount0 = th.lcount0 - 1 ∧
        (th.lcount0 ≠ 1 → (pass (n + 1)).pc = th.start0 ∧ (pass (n + 1)).lact0 = true) ∧
        (th.lcount0 = 1 → (pass (n + 1)).pc = th.lend ∧ (pass (n + 1)).lact0 = false)))

/-! ## Control -/

/-- 08 R205, R207, R211 and 07 R171: a taken BR, C.BR, or JR to an even address of 56 bits goes to its target and ends the
loops that R211 gives; it changes nothing else. -/
def Obligations.BranchesTaken : Prop :=
  (∀ (g : Guard) (off : BitVec 21) (s : State) (th : Thread), Issues (.br g off) s th →
    exec (.br g off) s = .next (s.setThread s.cur (th.transfer 4 (th.pc + 2 * off.signExtend 56) false))) ∧
  (∀ (off : BitVec 11) (s : State) (th : Thread), Issues (.cBr off) s th →
    exec (.cBr off) s = .next (s.setThread s.cur (th.transfer 2 (th.pc + 2 * off.signExtend 56) false))) ∧
  (∀ (g : Guard) (a : Reg) (s : State) (th : Thread), Issues (.jr g a) s th →
    (th.getX a).getLsbD 0 = false → (th.getX a).toNat < 2 ^ 56 →
    exec (.jr g a) s = .next (s.setThread s.cur (th.transfer 4 ((th.getX a).truncate 56) false)))

/-- 08 R211: what a taken transfer does to the loops. Its successor being an active level's end deactivates the level;
unless it is a call, so does a target outside the level's body; level 1 goes whenever level 0 does; PC is the target and
nothing else changes. -/
def Obligations.TransfersEndLoops : Prop :=
  ∀ (th : Thread) (len : Nat) (target : BitVec 56) (isCall : Bool),
    let succ := th.pc + BitVec.ofNat 56 len
    let ends0 := th.lact0 = true ∧
      (succ = th.lend ∨ (isCall = false ∧ ¬ (th.start0.toNat ≤ target.toNat ∧ target.toNat < th.lend.toNat)))
    let ends1 := th.lact1 = true ∧
      (succ = th.end1 ∨ (isCall = false ∧ ¬ (th.start1.toNat ≤ target.toNat ∧ target.toNat < th.end1.toNat)))
    ∃ l0 l1 : Bool,
      th.transfer len target isCall = { th with lact0 := l0, lact1 := l1, pc := target } ∧
      (l0 = true ↔ th.lact0 = true ∧ ¬ ends0) ∧
      (l1 = true ↔ th.lact1 = true ∧ ¬ ends0 ∧ ¬ ends1)

/-- 08 R205, R207: a CALL, or a CALLR to an even address of 56 bits, with room in the return store pushes PC + 4 with its
valid bit at entry 0, shifts the others down, and goes to its target. With a full return store and a spill slot left, each first
stores the oldest entry at SPB + 8 × SPILLD as a plain 8-byte CLS store and counts it in SPILLD. (No contour register of the core
covers the slot: none is set.) -/
def Obligations.Calls : Prop :=
  ∀ (g : Guard) (s : State) (th : Thread),
    let rs : Vector Word 8 :=
      #v[(th.pc + 4).zeroExtend 64 ||| 1, th.rs[0], th.rs[1], th.rs[2], th.rs[3], th.rs[4], th.rs[5], th.rs[6]]
    (th.rs[7].getLsbD 0 = false →
      (∀ off : BitVec 21, Issues (.call g off) s th →
        exec (.call g off) s =
          .next (s.setThread s.cur ({ th with rs := rs }.transfer 4 (th.pc + 2 * off.signExtend 56) true))) ∧
      (∀ a : Reg, Issues (.callr g a) s th → (th.getX a).getLsbD 0 = false → (th.getX a).toNat < 2 ^ 56 →
        exec (.callr g a) s =
          .next (s.setThread s.cur ({ th with rs := rs }.transfer 4 ((th.getX a).truncate 56) true)))) ∧
    (∀ (i : Instr) (target : BitVec 56),
      ((∃ off : BitVec 21, i = .call g off ∧ target = th.pc + 2 * off.signExtend 56) ∨
        ∃ a : Reg, i = .callr g a ∧ (th.getX a).getLsbD 0 = false ∧ (th.getX a).toNat < 2 ^ 56 ∧
          target = (th.getX a).truncate 56) →
      Issues i s th →
      th.rs[7].getLsbD 0 = true → th.ownLen ≠ 0 → th.spilld ≠ 32 → (s.core (coreOfKey s.cur)).contours = [] →
      ∃ (t : State) (u : Thread) (a : Access),
        exec i s = .next t ∧ t.thread s.cur = some u ∧
        u.acc = th.acc ++ [a] ∧ a.op = .store ∧ a.home = false ∧ a.ord = .plain ∧ a.size = 8 ∧
        a.data = leBytes 8 th.rs[7].toNat ∧ a.va = windowBase + 256 * th.ownOff + 8 * th.spilld.toNat ∧
        u.spilld = th.spilld + 1 ∧ u.pc = target ∧ u.rs = rs ∧
        u.x = th.x ∧ u.v = th.v ∧ u.p = th.p ∧ u.e = th.e ∧ t.mem = s.mem)

/-- 08 R205, R207, R211 and 07 R171: RET and C.RET with a valid address at entry 0 of the return store pop it and go
there. With an empty one and a spilled address, each loads the last spill slot, counts it in SPILLD and goes to its address; the
slot holds a valid entry in its form, is not poisoned, and no access of the thread is outstanding. -/
def Obligations.ReturnsPop : Prop :=
  ∀ (s : State) (th : Thread),
    let goes (u : Thread) (w : Word) : Prop :=
      let target : BitVec 56 := (w.truncate 56) &&& ~~~1
      (∀ g : Guard, Issues (.ret g) s th →
        exec (.ret g) s = .next (s.setThread s.cur (u.transfer 4 target false))) ∧
      (Issues .cRet s th → exec .cRet s = .next (s.setThread s.cur (u.transfer 2 target false)))
    (th.rs[0].getLsbD 0 = true → th.rs[0] ≠ 1 →
      goes { th with rs := #v[th.rs[1], th.rs[2], th.rs[3], th.rs[4], th.rs[5], th.rs[6], th.rs[7], 0] } th.rs[0]) ∧
    (let pa := windowPlace (coreOfKey s.cur) (256 * th.ownOff + 8 * (th.spilld.toNat - 1))
     let w : Word := BitVec.ofNat 64 (leNat (s.placeBytes pa 8))
     th.rs[0].getLsbD 0 = false → th.spilld ≠ 0 → th.acc = [] → s.isPoisoned pa = false →
      w.getLsbD 0 = true → wbits w 63 56 = 0 → w ≠ 1 → goes { th with spilld := th.spilld - 1 } w)

/-- 08 R205, R207: RSTACK, which changes neither the return store nor SPILLD, when a CALL finds the store full and no
spill slot left, and when a RET finds both empty; ALIGN, with the address, when JR or CALLR is given an odd one. -/
def Obligations.TransferTraps : Prop :=
  ∀ (g : Guard) (s : State) (th : Thread),
    let at_ (c : Cause) (info info2 : Word) : Out :=
      .next (s.takeTrap s.cur th ⟨c, info, info2, th.pc.toNat, th.pc.toNat, false, false, false, none⟩)
    (∀ off : BitVec 21, Issues (.call g off) s th → th.rs[7].getLsbD 0 = true → (th.ownLen = 0 ∨ th.spilld = 32) →
      exec (.call g off) s = at_ .rstack (th.pc.zeroExtend 64) (th.spilld.zeroExtend 64)) ∧
    (Issues (.ret g) s th → th.rs[0].getLsbD 0 = false → th.spilld = 0 →
      exec (.ret g) s = at_ .rstack (th.pc.zeroExtend 64) 0) ∧
    (∀ a : Reg, Issues (.jr g a) s th → (th.getX a).getLsbD 0 = true → exec (.jr g a) s = at_ .align (th.getX a) 0) ∧
    (∀ a : Reg, Issues (.callr g a) s th → (th.getX a).getLsbD 0 = true →
      exec (.callr g a) s = at_ .align (th.getX a) 0)

/-- 07 R165 and 08 R205: the return store gives back up to eight pushed addresses, the most recent first. -/
def Obligations.ReturnStoreIsAStack : Prop :=
  ∀ (l : List (BitVec 56)), l.length ≤ 8 → (∀ a ∈ l, a.getLsbD 0 = false) →
    let full := l.foldl (fun rs a => rsPush rs (rsEntry a)) (Vector.replicate 8 0)
    ∀ k : Nat, k < l.length →
      rsValid (Nat.iterate rsPop k full)[0] = true ∧
      some (rsAddr (Nat.iterate rsPop k full)[0]) = l.reverse[k]? ∧
      rsValid (Nat.iterate rsPop l.length full)[0] = false

/-- 08 R208, R209: LOOP and LOOPI open level 0 or, inside its body, level 1; a count of zero skips the body with the step
of R210. -/
def Obligations.LoopsOpen : Prop :=
  ∀ (g : Guard) (s : State) (th : Thread) (len : BitVec 10) (cnt : Nat) (i : Instr),
    (i = .loopi g (BitVec.ofNat 11 cnt) len ∧ cnt < 2 ^ 11 ∨
      ∃ a : Reg, i = .loop g a len ∧ cnt = (th.getX a).toNat) →
    Issues i s th →
    let start := th.pc + 4
    let fin := start + 2 * (len.zeroExtend 56 + 1)
    (cnt = 0 → exec i s = .next (s.setThread s.cur (th.step fin))) ∧
    (0 < cnt → cnt ≤ 16777215 → th.lact0 = false →
      exec i s = .next (s.setThread s.cur
        { th with lact0 := true, lcount0 := BitVec.ofNat 24 cnt, lend := fin, llen0 := len, pc := start })) ∧
    (0 < cnt → cnt ≤ 16777215 → th.lact0 = true → th.lact1 = false → th.start0.toNat ≤ th.pc.toNat →
      fin.toNat ≤ th.lend.toNat →
      exec i s = .next (s.setThread s.cur
        { th with
            lact1 := true, lcount1 := BitVec.ofNat 24 cnt, llen1 := len
            dend := BitVec.ofNat 10 ((th.lend.toNat - fin.toNat) / 2), pc := start }))

/-- 08 R209: a LOOP whose count is above 16,777,215, that would open a third level, or whose body is not nested inside
level 0's, takes LOOPNEST with PC. -/
def Obligations.LoopNestTraps : Prop :=
  ∀ (g : Guard) (s : State) (th : Thread) (a : Reg) (len : BitVec 10),
    Issues (.loop g a len) s th → 0 < (th.getX a).toNat →
    (16777215 < (th.getX a).toNat ∨ th.lact0 = true ∧
      (th.lact1 = true ∨ th.pc.toNat < th.start0.toNat ∨
        th.lend.toNat < (th.pc + 4 + 2 * (len.zeroExtend 56 + 1)).toNat)) →
    exec (.loop g a len) s =
      .next (s.takeTrap s.cur th ⟨.loopnest, th.pc.zeroExtend 64, 0, th.pc.toNat, th.pc.toNat, false, false, false, none⟩)

/-! ## Issue -/

/-- 00 R14, 07 R170, 08 R197, 10 R243: with a false guard every instruction but LOOP, LOOPI and VCVT steps to its successor
and does nothing else; LOOP and LOOPI skip their body; VCVT draws its random words and does nothing else. -/
def Obligations.FalseGuard : Prop :=
  ∀ (i : Instr) (s : State) (th : Thread), i.isWord = true → s.thread s.cur = some th →
    th.guardTrue i.guard = false →
    match i with
    | .loop _ _ len | .loopi _ _ len =>
      exec i s = .next (s.setThread s.cur (th.step (th.pc + 4 + 2 * (len.zeroExtend 56 + 1))))
    | .vcvt _ sr src dst _ _ =>
      exec i s = .next ((if sr then
          s.setCore (coreOfKey s.cur) { s.core (coreOfKey s.cur) with
            srstate := (srDraws ((cvtPositions src.val dst.val + 1) / 2) (s.core (coreOfKey s.cur)).srstate).2 }
        else s).setThread s.cur (th.next 4))
    | _ => exec i s = .next (s.setThread s.cur (th.next 4))

/-- 07 R173, R174; 18 R386: an instruction word whose guard holds and that waits for nothing takes the first that applies of
ILLEGAL (an unassigned CSR number), RESOURCE, PRIV and MXOWNER, and has no other effect. -/
def Obligations.ChecksInOrder : Prop :=
  ∀ (i : Instr) (s : State) (th : Thread), i.isWord = true → s.thread s.cur = some th → th.guardTrue i.guard = true →
    th.hazard (usesAt i s th) = false → ((usesAt i s th).drain.map th.completeAt).getD true = true →
    th.delivers (usesAt i s th) = false →
    let at_ (c : Cause) (info info2 : Word) : Out :=
      .next (s.takeTrap s.cur th ⟨c, info, info2, th.pc.toNat, th.pc.toNat, false, false, false, none⟩)
    let word := BitVec.ofNat 64 (leNat (encode i))
    ((usesAt i s th).unassigned = true → exec i s = at_ .illegal word 0) ∧
    (∀ info2 : Word, (usesAt i s th).unassigned = false → resourceCheck th (usesAt i s th) = some info2 →
      exec i s = at_ .resource word info2) ∧
    ((usesAt i s th).unassigned = false → resourceCheck th (usesAt i s th) = none → (usesAt i s th).priv = true →
      th.supervisor = false → exec i s = at_ .priv word 0) ∧
    ((usesAt i s th).unassigned = false → resourceCheck th (usesAt i s th) = none →
      ((usesAt i s th).priv = true → th.supervisor = true) → (usesAt i s th).mx = true →
      s.cur % 4 ≠ (s.core (coreOfKey s.cur)).mxNow →
      exec i s = at_ .mxowner (BitVec.ofNat 64 (s.core (coreOfKey s.cur)).mxOwn) 0)

/-- 07 R173 and 18 R388: the header check of a thread at U names the least x register outside XCOUNT, then the least v
register outside VCOUNT, the least handle outside RINGS, the barrier channel, the semaphore and the torus; a thread at S
is held to no register or handle, and only to the last three. -/
def Obligations.HeaderCheck : Prop :=
  ∀ (th : Thread) (u : Uses),
    let xs := u.xr ++ u.xw
    let vs := u.vr ++ u.vw
    let xOk := th.supervisor = true ∨ ∀ n ∈ xs, n < th.hdr.xcount
    let vOk := th.supervisor = true ∨ ∀ n ∈ vs, n < th.hdr.vcount
    let hOk := th.supervisor = true ∨ ∀ n ∈ u.handles, th.hdr.rings.getLsbD n = true
    let gang := th.kind = .gang ∧ th.supervisor = false
    let bOk := ∀ n, u.barrier = some n → gang ∧ th.hdr.barriers.getLsbD n = true
    let info (kind n : Nat) : Option Word := some (BitVec.ofNat 64 (kind * 2 ^ 60 + n % 2 ^ 56))
    (∀ n ∈ xs, th.supervisor = false → th.hdr.xcount ≤ n → (∀ m ∈ xs, th.hdr.xcount ≤ m → n ≤ m) →
      resourceCheck th u = info 1 n) ∧
    (∀ n ∈ vs, th.supervisor = false → th.hdr.vcount ≤ n → (∀ m ∈ vs, th.hdr.vcount ≤ m → n ≤ m) → xOk →
      resourceCheck th u = info 2 n) ∧
    (∀ n ∈ u.handles, th.supervisor = false → th.hdr.rings.getLsbD n = false →
      (∀ m ∈ u.handles, th.hdr.rings.getLsbD m = false → n ≤ m) → xOk → vOk → resourceCheck th u = info 3 n) ∧
    (∀ n, u.barrier = some n → ¬ (gang ∧ th.hdr.barriers.getLsbD n = true) → xOk → vOk → hOk →
      resourceCheck th u = info 4 n) ∧
    (∀ n, u.sem = some n → ¬ gang → xOk → vOk → hOk → bOk → resourceCheck th u = info 7 n) ∧
    (u.torus = true → ¬ (gang ∧ th.hdr.torus = true) → xOk → vOk → hOk → bOk → (u.sem = none ∨ gang) →
      resourceCheck th u = info 6 0) ∧
    (xOk → vOk → hOk → bOk → (u.sem = none ∨ gang) → (u.torus = false ∨ gang ∧ th.hdr.torus = true) →
      resourceCheck th u = none)

/-- 05 R123, R125: an instruction of the current thread whose registers an outstanding access still fills has no effect of its
own: it waits, and the thread's accesses progress. A release, a fence and every instruction whose rule orders it after the
thread's accesses waits until they are complete at its scope. -/
def Obligations.HazardsAndReleasesWait : Prop :=
  ∀ (i : Instr) (s : State) (th : Thread), i.isWord = true → s.thread s.cur = some th → th.guardTrue i.guard = true →
    (th.hazard (usesAt i s th) = true → exec i s = .next ((s.markWait s.cur).progress s.cur)) ∧
    ∀ sc : Scope, th.hazard (usesAt i s th) = false → (usesAt i s th).drain = some sc → th.completeAt sc = false →
      exec i s = .next (s.settleStep s.cur)

/-- No instruction word, no operation of the machine and no step of it stops: each answers a next state from every state
(the spec gives every one of them an effect). -/
def Obligations.NothingStops : Prop :=
  (∀ (i : Instr) (s : State), ∃ t : State, exec i s = .next t) ∧ ∀ s : State, ∃ t : State, step s = .next t

/-- Memory keeps its canonical form (log entry 1): addresses strictly rise and no listed byte is zero, so that equal
memories are equal data. No instruction word, operation of the machine or step loses it, from any state that has it. -/
def Obligations.MemoryStaysCanonical : Prop :=
  (∀ (i : Instr) (s t : State), s.mem.wf = true → exec i s = .next t → t.mem.wf = true) ∧
  ∀ s t : State, s.mem.wf = true → step s = .next t → t.mem.wf = true

/-! ## Vector instructions -/

/-- 10 R242, R245, R246: each integer lane instruction writes every lane of V[D] from the same lanes of V[A] and V[B], and
changes nothing else. -/
def Obligations.IntegerLaneResults : Prop :=
  ∀ (i : Instr) (t : IType) (d a b : Reg) (f : (w : Nat) → BitVec w → BitVec w → BitVec w) (s : State) (th : Thread),
    integerLanes i = some (t, d, a, b, f) → Issues i s th →
      ∃ r : VWord,
        exec i s = .next (s.setThread s.cur ({ th with v := th.v.set d r }.next 4)) ∧
        ∀ k : Nat, k < 256 / itypeWidth t →
          lane (itypeWidth t) k r =
            f (itypeWidth t) (lane (itypeWidth t) k (th.getV a)) (lane (itypeWidth t) k (th.getV b))

/-- 10 R248, R249 and 06 R161, R162: each floating lane instruction writes every lane of V[D] and ORs the flags of all
lanes into FSTAT; it changes nothing else. -/
def Obligations.FloatLaneResults : Prop :=
  ∀ (i : Instr) (t : FType) (d a b : Reg) (f : FloatFmt → Nat → Nat → Nat → Nat × Raised) (s : State) (th : Thread),
    floatLanes i = some (t, d, a, b, f) → Issues i s th →
      let w := ftypeWidth t
      let result (k : Nat) : Nat × Raised :=
        f (ftypeFmt t) (lane w k (th.getV a)).toNat (lane w k (th.getV b)).toNat (lane w k (th.getV d)).toNat
      ∃ r : VWord,
        exec i s = .next (s.setThread s.cur
          ({ th with v := th.v.set d r, fstat := th.fstat ||| flagsOf (256 / w) fun k => (result k).2 }.next 4)) ∧
        ∀ k : Nat, k < 256 / w → lane w k r = BitVec.ofNat w (result k).1

/-- 06 R149, R159 and 00 R15: rounding to nearest, ties to even, of a finite value to any floating-point format: where the
result does not overflow, no finite code of the format is nearer, and of two nearest ones the even one is taken. -/
def Obligations.RoundsToNearestEven : Prop :=
  ∀ (fmt : Nat) (f : FloatFmt) (neg : Bool) (m : Nat) (e : Int), floatFmt fmt = some f →
    let r := f.round .rne neg m e false
    let x := valueQ (.fin neg m e)
    r.2.of = false → r.2.csat = false →
      isFinite (f.value r.1) = true ∧ (r.2.nx = true ↔ valueQ (f.value r.1) ≠ x) ∧
      ∀ c : Nat, c < 2 * f.signBit → isFinite (f.value c) = true →
        |valueQ (f.value r.1) - x| ≤ |valueQ (f.value c) - x| ∧
        (valueQ (f.value c) ≠ valueQ (f.value r.1) → |valueQ (f.value r.1) - x| = |valueQ (f.value c) - x| →
          r.1 % 2 = 0)

/-- 10 R250 to R253 and 06 R151, R152, R154: a VCVT that its pair and operands admit writes its destination and the flags of its
elements, by the rounding each position draws under .sr, advances SRSTATE under .sr and only then, and changes no memory. Each class
writes each element as its rule gives, zero above the last, and a narrowing to a float format the block's scale to E[7]. -/
def Obligations.ConversionResults : Prop :=
  ∀ (g : Guard) (sr : Bool) (src dst : Fin 32) (d a : Reg) (s : State) (th : Thread),
    (Instr.vcvt g sr src dst d a).wf = true → Issues (.vcvt g sr src dst d a) s th →
      let c := coreOfKey s.cur
      let n := cvtPositions src.val dst.val
      let draws := srDraws ((n + 1) / 2) (s.core c).srstate
      let mode (k : Nat) : Rounding := if sr then .sr ((draws.1[k]?).getD 0) else .rne
      ∃ u : Thread,
        exec (.vcvt g sr src dst d a) s =
          .next ((if sr then s.setCore c { s.core c with srstate := draws.2 } else s).setThread s.cur (u.next 4)) ∧
        u = { th with v := u.v, e := u.e, fstat := u.fstat } ∧
        (∀ r : Reg, (r.val < d.val ∨ d.val + cvtDstSpan src.val dst.val ≤ r.val) → u.getV r = th.getV r) ∧
        (∀ k : Reg8, k ≠ 7 → u.getE k = th.getE k) ∧
        (cvtClass src.val dst.val ≠ some .narrowFloat → u.e = th.e) ∧
        (let w := fmtWidth src.val
         let wd := fmtWidth dst.val
         let cls := cvtClass src.val dst.val
         let code (k : Nat) : Nat :=
           if cls = some .narrowFloat ∨ cls = some .narrowInt then (spanLane w k th a).toNat else (lane w k (th.getV a)).toNat
         let x (k : Nat) : Machine.Num := fmtValue src.val (code k)
         let out (k : Nat) : BitVec wd :=
           if cls = some .widenFloat ∨ cls = some .widenInt then spanLane wd k u d else lane wd k (u.getV d)
         let converts (y : Nat → Machine.Num) : Prop :=
           (∀ k : Nat, k < n → out k = BitVec.ofNat wd (convert dst.val (mode k) (y k)).1) ∧
           u.fstat = th.fstat ||| flagsOf n fun k => (convert dst.val (mode k) (y k)).2
         let q := wbits (th.getE 7) 7 0
         (cls = some .wide ∨ cls = some .narrowFloat ∨ cls = some .narrowInt → (u.getV d).toNat < 2 ^ (n * wd)) ∧
         (cls = some .wide ∨ cls = some .narrowInt → converts x) ∧
         (cls = some .widenFloat →
           converts fun k => if q = 0xFF then .nan true else (x k).scale ((q : Int) - 127)) ∧
         (cls = some .widenInt →
           (∀ k : Nat, k < n → out k = BitVec.ofInt wd (intValue src.val (code k))) ∧ u.fstat = th.fstat) ∧
         (cls = some .plane →
           (∀ k : Nat, k < n → out k = BitVec.ofInt wd (gatheredPlanes w k (th.getV a))) ∧ u.fstat = th.fstat) ∧
         (∀ f : FloatFmt, cls = some .narrowFloat → floatFmt dst.val = some f →
           ∃ flags : BitVec 7, u.fstat = th.fstat ||| flags ∧
             BlockEncoded dst.val f x mode (u.getE 7).toNat (fun k => (out k).toNat) flags))

/-- 10 R254: VCMP writes P[pd] with the AND or the OR of its lanes' comparisons. -/
def Obligations.CompareResults : Prop :=
  ∀ (g : Guard) (cc : VCc) (t : LType) (all : Bool) (pd : Reg8) (a b : Reg) (s : State) (th : Thread),
    Issues (.vcmp g cc t all pd a b) s th →
      let w := ltypeWidth t
      let x (k : Nat) := lane w k (th.getV a)
      let y (k : Nat) := lane w k (th.getV b)
      let holds (k : Nat) : Bool × Bool :=
        match ltypeSplit t with
        | .inl _ =>
          (match cc with
            | .eq => x k == y k
            | .ne => !(x k == y k)
            | .lt => (x k).slt (y k)
            | .le => !(y k).slt (x k)
            | .ltu => (x k).ult (y k)
            | .leu => !(y k).ult (x k), false)
        | .inr f => vccFloat cc (ftypeFmt f) (x k).toNat (y k).toNat
      exec (.vcmp g cc t all pd a b) s =
        .next (s.setThread s.cur
          ({ th.setP pd (if all then (List.range (256 / w)).all fun k => (holds k).1
              else (List.range (256 / w)).any fun k => (holds k).1) with
            fstat := th.fstat ||| (if (List.range (256 / w)).any fun k => (holds k).2 then 0x10 else 0) }.next 4))

/-- 10 R255: VPERM gathers bytes by index, an index of 32 or more giving zero; VBCAST, VEXT and VINS move one lane between
an x register and a v register, the lane number taken modulo the number of lanes. -/
def Obligations.LaneMoves : Prop :=
  ∀ (g : Guard) (t : IType) (d a b : Reg) (s : State) (th : Thread),
    let w := itypeWidth t
    let n := 256 / w
    (Issues (.vperm g d a b) s th →
      ∃ r : VWord, exec (.vperm g d a b) s = .next (s.setThread s.cur ({ th with v := th.v.set d r }.next 4)) ∧
        ∀ k : Nat, k < 32 →
          lane 8 k r = (if (lane 8 k (th.getV b)).toNat < 32 then lane 8 (lane 8 k (th.getV b)).toNat (th.getV a) else 0)) ∧
    (Issues (.vbcast g t d a) s th →
      ∃ r : VWord, exec (.vbcast g t d a) s = .next (s.setThread s.cur ({ th with v := th.v.set d r }.next 4)) ∧
        ∀ k : Nat, k < n → lane w k r = (th.getX a).truncate w) ∧
    (Issues (.vext g t d a b) s th →
      exec (.vext g t d a b) s = .next (s.setThread s.cur
        ((th.setX d ((lane w ((th.getX b).toNat % n) (th.getV a)).zeroExtend 64) (th.getTaint b)).next 4))) ∧
    (Issues (.vins g t d a b) s th →
      ∃ r : VWord, exec (.vins g t d a b) s = .next (s.setThread s.cur ({ th with v := th.v.set d r }.next 4)) ∧
        ∀ k : Nat, k < n →
          lane w k r = (if k = (th.getX b).toNat % n then (th.getX a).truncate w else lane w k (th.getV d)))

/-- 10 R256: an integer VRED leaves the 64-bit sum, or the least or greatest lane, in the low lane of V[D] and zero above
it; a floating one combines neighbours level by level and leaves the result in lane 0, zero above it, with the flags of every
combine. -/
def Obligations.Reductions : Prop :=
  ∀ (g : Guard) (t : LType) (d a : Reg) (s : State) (th : Thread),
    let w := ltypeWidth t
    let n := 256 / w
    let ints := (List.range n).map fun k => (lane w k (th.getV a)).toInt
    let put (r : VWord) (fl : BitVec 7) : Out :=
      .next (s.setThread s.cur ({ th with v := th.v.set d r, fstat := th.fstat ||| fl }.next 4))
    let tree (f : FloatFmt → Nat → Nat → Nat × Raised) (k : FType) : Nat × Raised :=
      reduceTree (f (ftypeFmt k)) (fun j => (lane w j (th.getV a)).toNat) (Nat.log2 n) 0
    (Issues (.vredSum g t d a) s th → exec (.vredSum g t d a) s =
      match ltypeSplit t with
      | .inl _ => put ((BitVec.ofInt 64 ints.sum).zeroExtend 256) 0
      | .inr k => put ((BitVec.ofNat w (tree fAdd k).1).zeroExtend 256) (tree fAdd k).2.toBits) ∧
    (Issues (.vredMin g t d a) s th → exec (.vredMin g t d a) s =
      match ltypeSplit t with
      | .inl _ => put ((BitVec.ofInt w (ints.min?.getD 0)).zeroExtend 256) 0
      | .inr k => put ((BitVec.ofNat w (tree (fun f => f.extreme false) k).1).zeroExtend 256)
          (tree (fun f => f.extreme false) k).2.toBits) ∧
    (Issues (.vredMax g t d a) s th → exec (.vredMax g t d a) s =
      match ltypeSplit t with
      | .inl _ => put ((BitVec.ofInt w (ints.max?.getD 0)).zeroExtend 256) 0
      | .inr k => put ((BitVec.ofNat w (tree (fun f => f.extreme true) k).1).zeroExtend 256)
          (tree (fun f => f.extreme true) k).2.toBits)

/-- 10 R259: VMSUM adds f32 lanes when bit 0 of X[B] is 1 and otherwise leaves V[D]; VRSCL multiplies by X[B][63:32] and
divides by X[B][31:0], rounding once, and with a divisor of zero writes zero and sets DZ. -/
def Obligations.StippleLanes : Prop :=
  ∀ (g : Guard) (d a b : Reg) (s : State) (th : Thread),
    let x (r : Reg) (k : Nat) : Nat := (lane 32 k (th.getV r)).toNat
    let n := (th.getX b).toNat / 2 ^ 32
    let c := (th.getX b).toNat % 2 ^ 32
    (Issues (.vmsum g d a b) s th → (th.getX b).getLsbD 0 = true →
      ∃ r : VWord, exec (.vmsum g d a b) s = .next (s.setThread s.cur
          ({ th with v := th.v.set d r, fstat := th.fstat ||| flagsOf 8 fun k => (fAdd f32 (x d k) (x a k)).2 }.next 4)) ∧
        ∀ k : Nat, k < 8 → lane 32 k r = BitVec.ofNat 32 (fAdd f32 (x d k) (x a k)).1) ∧
    (Issues (.vmsum g d a b) s th → (th.getX b).getLsbD 0 = false →
      exec (.vmsum g d a b) s = .next (s.setThread s.cur (th.next 4))) ∧
    (Issues (.vrscl g d a b) s th → c ≠ 0 →
      ∃ r : VWord, exec (.vrscl g d a b) s = .next (s.setThread s.cur
          ({ th with v := th.v.set d r, fstat := th.fstat ||| flagsOf 8 fun k => (rescale n c (x a k)).2 }.next 4)) ∧
        ∀ k : Nat, k < 8 → lane 32 k r = BitVec.ofNat 32 (rescale n c (x a k)).1) ∧
    (Issues (.vrscl g d a b) s th → c = 0 →
      exec (.vrscl g d a b) s =
        .next (s.setThread s.cur ({ th with v := th.v.set d 0, fstat := th.fstat ||| 0x08 }.next 4)))

/-! ## Words and steps -/

/-- 07 R168 to R188: words written out from the encoding tables, one or more of every family, and what each stands for; the
two words that 07 gives as undefined decode to nothing. -/
def Obligations.DecodedWords : Prop :=
  let g := Guard.always
  let is (w : Nat) (i : Instr) : Prop := decode (leBytes 4 w) = .ok (i, 4)
  is 0x00E62981 (.add ⟨false, 3⟩ 5 6 7) ∧ is 0x01231815 (.li g 3 0x0123) ∧ is 0xCDEF1817 (.lsh g 3 0xCDEF) ∧
  is 0x00850029 (.loopi g 4 5) ∧ is 0xC0062833 (.st g .d false 5 6 0) ∧ is 0xBFC44831 (.ld g .w true 9 4 (-2)) ∧
  is 0x90444835 (.ldAcq g .p .w false 9 4 2) ∧ is 0x1907003D (.aadd g .rel .p true 0 7 8) ∧
  is 0x10000041 (.fence g .p) ∧ is 0x20C22847 (.ldr g 5 2 6) ∧ is 0x08412049 (.vadd g .i32 4 1 2) ∧
  is 0x04C5204D (.vfma g .f32 4 5 6) ∧ is 0x24004063 (.mm g 3 0 false true 0 0 4) ∧ is 0x10001077 (.zclr g 2) ∧
  is 0x056A4879 (.spawn g false false false true 9 10 11) ∧ is 0x40092879 (.touch g 5 9) ∧
  is 0x22B4187B (.send g 3 20 21) ∧ is 0x4014487B (.eng g 9 20) ∧ is 0x0C06287D (.rld g .d 5 6) ∧
  is 0x0800007F (.eret g) ∧ decode (leBytes 2 0x2424 ++ [0, 0]) = .ok (.cAdd 1 9, 2) ∧
  decode (leBytes 4 0x74E62C01) = .error (.notAnInstruction 4 0x74E62C01) ∧ decode (leBytes 2 0x003C) = .error (.notAnInstruction 2 0x003C)

/-- 03 R80, 05 R134, 07 R168, 18 R390: with nothing else scheduled a step fetches the bytes at PC of the core's next ready
thread that issues, or when none issues of a thread that waits, decodes them and executes the instruction; bytes that no
instruction encodes take ILLEGAL with the bytes as INFO. A step whose turn is an operation of the machine takes it. (The
turns are the model's schedule, log entry 2.) -/
def Obligations.StepRunsTheInstruction : Prop :=
  ∀ s : State,
    let s0 := s.pass 1
    let c := coreOfKey s0.cur
    let v := (coreSlots c).foldl State.noteWait (s0.noteActive c)
    let runs (at_ : State) (t : Nat) (th : Thread) : Prop :=
      ∀ (s1 : State) (bs : List Byte), fetch { at_ with cur := t } t th = .ok (s1, bs) →
        (∀ (i : Instr) (n : Nat), decode bs = .ok (i, n) → step s = exec i s1) ∧
        (∀ e, decode bs = .error e → step s = .next (s1.takeTrap t th
          ⟨.illegal, BitVec.ofNat 64 (leNat bs), 0, th.pc.toNat, th.pc.toNat, false, false, false, none⟩))
    let issues := v.pick c (v.core c).turns fun t th => th.ready && !v.leaving t th && th.stuck.isNone
    (s0.schedule = [] → (s0.core c).killed = false → (s0.core c).consumed = none →
      (∀ (t : Nat) (th : Thread), issues = some t → v.thread t = some th → runs (v.noteIssue t th) t th) ∧
      (∀ (t : Nat) (th : Thread), issues = none →
        v.pick c (fairTurns v.now) (fun t th => th.ready && !v.leaving t th) = some t → v.thread t = some th → runs v t th)) ∧
    (∀ (i : Instr) (rest : List Turn), s0.schedule = .event i :: rest → i.isWord = false →
      step s = exec i { s0 with schedule := rest })

/-- 01 R21, 04 R99, 06 R151, 07 R178, 11 R262, 09 R238, 15 R347: the machine right after cold reset. (That memory reads
zero, and the registers without a stated reset value, are the model's choice: log entries 1 and 9.) -/
def Obligations.ResetState : Prop :=
  let s := State.reset
  (∀ t : Nat, s.thread t = none) ∧ (∀ p : Nat, (s.part p).live = false) ∧
  (∀ c : Nat, (s.core c).srstate = 0x9E3779B97F4A7C15 ∧ (s.core c).sleepCfg = 0 ∧ (s.core c).clsSplit = 0 ∧
    (s.core c).mxOwn = 0 ∧ (s.core c).tfullA = false ∧ (s.core c).tfullB = false ∧
    (s.core c).h3 = (s.core c).h3Now ∧ (∀ n : Nat, ((s.core c).contour n).act = 0 ∧ ((s.core c).contour n).count = 0)) ∧
  (∀ f : Nat, f < 24 → (s.core (f * 256)).h3 = true ∧ ∀ j : Nat, 0 < j → j < 256 → (s.core (f * 256 + j)).h3 = false) ∧
  (∀ cl n : Nat, ((s.cluster cl).ring n).en = false) ∧ (∀ m : Nat, (s.port m).up = false) ∧
  s.pkg.safe = true ∧ Memory.wf s.mem = true ∧ ∀ a : Nat, s.mem.read a = 0

/-! ## Traps -/

/-- 17 R369 to R373; 08 R213, 18 R392: taking a trap of a thread whose accesses have settled. At depth 0 or 1 the lines of its frame
are stored one by one, each joining the stores that a later release publishes: the trap record, then the image of the thread, which
resumes where the cause says, after a completed instruction at FPC + 4 with the loop state of that step. Once the last line has been
stored the thread enters its handler: PC, level, domain, x1 to x4 and the cleared registers are as stated, and the frame keeps what
ERET restores. At depth 2 the thread ends once its accesses are complete at .s, and DBLTRAP counts. -/
def Obligations.TrapEntry : Prop :=
  ∀ (s : State) (t : Nat) (th : Thread) (r : TrapReq), th.deferred = [] → th.settled = true →
    (s.core (coreOfKey t)).mx = none →
    let d := th.frames.length
    let k := s.part th.part
    let fr := k.tfBase + t * 4096 + d * 2048
    let xc := if th.supervisor then 32 else th.hdr.xcount
    let vc := if th.supervisor then 32 else th.hdr.vcount
    let lines := (127 + (160 + 8 * xc + 32 * vc)) / 64
    let resumed := if r.completed then th.next 4 else { th with pc := BitVec.ofNat 56 r.resume }
    let line (n : Nat) : List Byte := ((trapRecord r th d ++ resumed.image xc vc).drop (64 * n)).take 64
    let reached (n : Nat) : Thread := { th with trap := some { r with stored := some n } }
    (∀ (n : Nat) (s1 s2 : State), d < 2 → n < lines → s.frameWaits (coreOfKey t) th.part (fr + 64 * n) 1 = false →
      s.frameCheck (coreOfKey t) th.part fr true = some s1 →
      s1.frameStore th.part (coreOfKey t) (fr + 64 * n) (line n) = .ok s2 →
      let u := s2.setThread t ((reached (n + 1)).noteAt (fr + 64 * n) r.fpc)
      (n = 0 → r.stored = none → s.takeTrap t th r = u) ∧ (0 < n → s.enterHeld t (reached n) = u)) ∧
    (d < 2 → ∃ (u : Thread) (f : TFrame), s.enterHeld t (reached lines) = s.setThread t u ∧
      u.pc = BitVec.ofNat 56 k.stvec ∧ u.supervisor = true ∧ u.kind = .supervisor ∧ u.dom = 0 ∧ u.part = th.part ∧
      u.getX 1 = BitVec.ofNat 64 (vc * 2 ^ 22 + xc * 2 ^ 16 + (if r.deferred then 2 ^ 13 else 0) + d * 2 ^ 12
        + th.kind.code * 2 ^ 10 + (if th.supervisor then 2 ^ 9 else 0) + (if r.async then 2 ^ 8 else 0) + r.cause.code) ∧
      u.getX 2 = r.info ∧ u.getX 3 = r.info2 ∧ u.getX 4 = BitVec.ofNat 64 fr ∧
      (∀ n : Reg, n ≠ 1 → n ≠ 2 → n ≠ 3 → n ≠ 4 → u.getX n = 0) ∧ (∀ n : Reg, u.getV n = 0 ∧ u.getTaint n = false) ∧
      (∀ n : Reg8, u.getE n = 0 ∧ u.rs[n] = 0 ∧ u.getP n = (n == 0)) ∧ u.spilld = 0 ∧ u.fstat = 0 ∧
      u.lact0 = false ∧ u.lact1 = false ∧ u.wait = .none ∧ u.trap = none ∧ u.frames = f :: th.frames ∧
      f.addr = BitVec.ofNat 64 fr ∧ f.cause = r.cause ∧ f.kind = th.kind ∧ f.ppriv = th.supervisor ∧ f.xcount = xc ∧
      f.vcount = vc ∧ f.dom = th.dom ∧ f.hdr = th.hdr ∧ f.spanOff = th.spanOff ∧ f.spanLen = th.spanLen ∧
      f.ownOff = th.ownOff ∧ f.ownLen = th.ownLen) ∧
    (2 ≤ d → th.completeAt .s = true → (s.takeTrap t th r).thread t = none ∧
      ((s.takeTrap t th r).part th.part).counters.find ctrDbltrap =
        some (Nat.min (2 ^ 48 - 1) ((k.counters.find ctrDbltrap).getD 0 + 1)))

/-- 08 R213 to R217, 17 R374: TRAP takes SYSCALL with its ten-bit code and resumes after itself; EBREAK takes BRK; ERET
reloads the image of its frame line by line and then restores what the frame keeps, and outside a handler takes ILLEGAL; CSRR
writes X[D] with the register, whose fields are as 07 R177 lays them out, and clears its taint; CSRW writes the register from X[A],
one of S1INV once no line of its range is left; a denied CSR takes PRIV with its number; SLEEP waits at its PC and, woken, goes on. -/
def Obligations.SystemInstructions : Prop :=
  ∀ (g : Guard) (hi lo : Fin 32) (s : State) (th : Thread),
    let n := hi.val * 32 + lo.val
    let at_ (c : Cause) (info info2 : Word) (completed : Bool) : Out :=
      .next (s.takeTrap s.cur th ⟨c, info, info2, th.pc.toNat, th.pc.toNat, false, false, completed, none⟩)
    let word (i : Instr) : Word := BitVec.ofNat 64 (leNat (encode i))
    (Issues (.trap g hi lo) s th → exec (.trap g hi lo) s = at_ .syscall (BitVec.ofNat 64 n) 0 true) ∧
    (Issues (.ebreak g) s th → exec (.ebreak g) s = at_ .brk 0 0 false) ∧
    (Issues (.eret g) s th → th.frames = [] → exec (.eret g) s = at_ .illegal (word (.eret g)) 0 false) ∧
    (∀ (f : TFrame) (rest : List TFrame), Issues (.eret g) s th → th.frames = f :: rest →
      let at_ := f.addr.toNat + 64 + th.reload.length
      let size := 160 + 8 * f.xcount + 32 * f.vcount
      (∀ (s1 s2 : State) (bs : List Byte), th.reload.length < size →
        s.frameWaits (coreOfKey s.cur) th.part at_ 1 = false →
        s.frameCheck (coreOfKey s.cur) th.part f.addr.toNat false = some s1 →
        s1.frameLoad th.part (coreOfKey s.cur) at_ = .ok (s2, bs) →
        exec (.eret g) s = .next (s2.setThread s.cur { th with reload := th.reload ++ bs })) ∧
      (size ≤ th.reload.length → f.pending = [] → th.preemptDue = false →
        exec (.eret g) s = .next (s.setThread s.cur { th.loadImage th.reload f.xcount f.vcount with
          frames := rest, supervisor := f.ppriv, kind := f.kind, dom := f.dom, hdr := f.hdr, spanOff := f.spanOff
          spanLen := f.spanLen, ownOff := f.ownOff, ownLen := f.ownLen, deferred := [], held := s.now, reload := [] }))) ∧
    CsrLayouts s th ∧
    (∀ d : Reg, Issues (.csrr g d hi lo) s th → csrDenied s th n = false → (n ≠ 0 ∨ s.owesFlags s.cur = false) →
      exec (.csrr g d hi lo) s =
        .next (s.setThread s.cur ((th.setX d (BitVec.ofNat 64 (csrRead s th n)) false).next 4))) ∧
    (∀ d : Reg, Issues (.csrw g d hi lo) s th → csrDenied s th n = false → (n ≠ 0 ∨ s.owesFlags s.cur = false) →
      (n = 0x085 → (csrWrite s th n (th.getX d).toNat).s1invOpen th.part (th.getX d).toNat = false) →
      exec (.csrw g d hi lo) s =
        .next (csrWrite (s.setThread s.cur ((th.csrWrite n (th.getX d).toNat).next 4)) th n (th.getX d).toNat)) ∧
    (∀ d : Reg, csrDenied s th n = true →
      (Issues (.csrr g d hi lo) s th →
        exec (.csrr g d hi lo) s = at_ .priv (word (.csrr g d hi lo)) (BitVec.ofNat 64 n) false) ∧
      (Issues (.csrw g d hi lo) s th →
        exec (.csrw g d hi lo) s = at_ .priv (word (.csrw g d hi lo)) (BitVec.ofNat 64 n) false)) ∧
    (Issues (.sleep g) s th →
      (th.wait = .none → exec (.sleep g) s = .next (s.setThread s.cur { th with wait := .sleep s.now })) ∧
      (th.wait = .woken → exec (.sleep g) s = .next (s.setThread s.cur ({ th with wait := .none }.next 4))))

/-- 07 R167, 02 R35: a context image has 160 + 8 × xc + 32 × vc bytes, its words C0 to C3 hold the fields of 07 R167, and
reloading it gives back every register that it holds, into whatever thread, and leaves the thread's other registers as they
were. (PC and LEND are even, as every instruction leaves them. That all 64 bits of a return-store entry come back is the model's
choice: log entry 87.) -/
def Obligations.ContextImage : Prop :=
  ∀ (th u : Thread) (xc vc : Nat), 1 ≤ xc → xc ≤ 32 → vc ≤ 32 → th.pc.getLsbD 0 = false → th.lend.getLsbD 0 = false →
    let img := th.image xc vc
    let r := u.loadImage img xc vc
    let c (n : Nat) : Word := imageWord img (8 * n)
    img.length = 160 + 8 * xc + 32 * vc ∧
    wbits (c 0) 55 0 = th.pc.toNat ∧ wbits (c 0) 62 56 = th.fstat.toNat ∧ wbits (c 1) 23 0 = th.lcount0.toNat ∧
    wbits (c 2) 63 40 = th.lcount1.toNat ∧ wbits (c 2) 7 2 = th.spilld.toNat ∧ wbits (c 3) 55 0 = th.lend.toNat ∧
    r.pc = th.pc ∧ r.fstat = th.fstat ∧ r.lcount0 = th.lcount0 ∧ r.lcount1 = th.lcount1 ∧ r.llen0 = th.llen0 ∧
    r.llen1 = th.llen1 ∧ r.dend = th.dend ∧ r.spilld = th.spilld ∧ r.lact0 = th.lact0 ∧ r.lact1 = th.lact1 ∧
    r.lend = th.lend ∧ r.e = th.e ∧ r.rs = th.rs ∧ (∀ n : Reg8, r.getP n = th.getP n) ∧
    (∀ n : Reg, r.getTaint n = th.getTaint n) ∧
    (∀ n : Reg, r.getX n = if n.val < xc then th.getX n else u.getX n) ∧
    (∀ n : Reg, r.getV n = if n.val < vc then th.getV n else u.getV n) ∧
    r.part = u.part ∧ r.frames = u.frames ∧ r.supervisor = u.supervisor ∧ r.dom = u.dom ∧ r.acc = u.acc

/-! ## Loads, stores and atomics -/

/-- 09 R218, R221, R222, R234, 10 R257, R258, 07 R171, 05 R120: a load that passes its checks issues one access of its
width to its address, which will fill its destination, and steps on; on an ATOM page a vector load issues two of 16 bytes.
Neither the checks nor the issue change memory or another thread. -/
def Obligations.LoadsIssue : Prop :=
  (∀ (i : Instr) (s : State) (th : Thread) (f : LoadForm) (d : Reg) (ea : Nat) (taint : Bool) (t : State) (c : Checked),
    loadOf s th i = some (f, d, ea, taint) → Issues i s th →
    Reaches i s th ea f.bytes f.bytes (loadDesc f d) .load t c →
    ∃ a : Access, exec i s = .next (t.setThread s.cur ((th.addAccess a).next i.len)) ∧
      t.mem = s.mem ∧ t.threads = s.threads ∧
      a.op = .load ∧ a.va = c.va ∧ a.info = ea ∧ a.size = f.bytes ∧ a.place = c.place ∧ a.ord = f.ord ∧
      a.scope = f.scope ∧ a.consume = f.consume ∧ a.dst = .x d f.bytes (!f.z) (f.consume || taint) ∧ a.state = .issued) ∧
  (∀ (i : Instr) (s : State) (th : Thread) (d : Reg) (ea : Nat) (t : State) (c : Checked),
    ((∃ g a disp, i = .vld g d a disp ∧ ea = address (th.getX a) disp 32) ∨
      (∃ g h side slot off, i = .vldr g d h side slot off ∧
        (s.ringOf th h).admitsSlot slot.toNat (off.toNat * 32) 32 = true ∧
        ea = ringAddr th.homeCluster (s.ringOf th h) side slot.toNat (off.toNat * 32))) →
    Issues i s th → Reaches i s th ea 32 32 (descriptor 0 5 0 0 0 0 1 d.val 0 0 0) .vload t c →
    ∃ a : Access,
      exec i s = .next (t.setThread s.cur ((if c.place = .atom then
        (th.addAccess { a with size := 16 }).addAccess
          { a with size := 16, va := c.va + 16, dst := .v d 16 }
        else th.addAccess a).next 4)) ∧
      t.mem = s.mem ∧ t.threads = s.threads ∧
      a.op = .load ∧ a.va = c.va ∧ a.info = ea ∧ a.size = 32 ∧ a.place = c.place ∧ a.ord = .plain ∧ a.dst = .v d 0 ∧
      a.state = .issued)

/-- 09 R218, R223, R224, R234, R240, R241, 10 R257, R258, 07 R171, 05 R119, R125: a store that passes its checks issues one
access of its width that carries its register's low bytes, as the contour registers leave them (ContourChecks), and steps on;
an element under TRAP takes CONTOUR instead, with the address of the first failing element. A st.rel issues only when the
thread's earlier accesses are complete at its scope, and its access has no order of its own. Memory is unchanged until the store
performs. That a VLD or VST on an ATOM page carries its first address in both halves is log entry 110, the model's choice. -/
def Obligations.StoresIssue : Prop :=
  (∀ (i : Instr) (s : State) (th : Thread) (f : StoreForm) (ea : Nat) (x : Reg) (t : State) (c : Checked) (cs : Map Contour),
    storeOf s th i = some (f, ea, x) → Issues i s th → Reaches i s th ea f.bytes f.bytes (storeDesc f) .store t c →
    let k := t.core (coreOfKey s.cur)
    let checked := contourCheck k.contours c.va (leBytes f.bytes (th.getX x).toNat)
    let t' := t.setCore (coreOfKey s.cur) { k with contours := cs }
    (∀ data : Nat, checked = (cs, .pass data) →
      ∃ a : Access, exec i s = .next (t'.setThread s.cur ((th.addAccess a).next i.len)) ∧
        t'.mem = s.mem ∧ t'.threads = s.threads ∧
        a.op = .store ∧ a.va = c.va ∧ a.info = ea ∧ a.size = f.bytes ∧ a.place = c.place ∧ a.data = leBytes f.bytes data ∧
        a.home = f.home ∧ a.ord = .plain ∧ a.dst = .none ∧ a.state = .issued ∧
        (f.ord = .rel → th.completeAt f.scope = true)) ∧
    (∀ n at_ : Nat, checked = (cs, .trap n at_) → th.deferred = [] → th.settled = true →
      exec i s = .next (t'.takeTrap s.cur th
        ⟨.contour, BitVec.ofNat 64 n, BitVec.ofNat 64 at_, th.pc.toNat, th.pc.toNat, false, false, false, none⟩))) ∧
  (∀ (i : Instr) (s : State) (th : Thread) (v : Reg) (ea : Nat) (t : State) (c : Checked) (cs : Map Contour) (data : Nat),
    ((∃ g a disp, i = .vst g v a disp ∧ ea = address (th.getX a) disp 32) ∨
      (∃ g h side slot off, i = .vstr g v h side slot off ∧
        (s.ringOf th h).admitsSlot slot.toNat (off.toNat * 32) 32 = true ∧
        ea = ringAddr th.homeCluster (s.ringOf th h) side slot.toNat (off.toNat * 32))) →
    Issues i s th → Reaches i s th ea 32 32 (descriptor 1 5 0 0 0 0 1 v.val 0 0 0) .vstore t c →
    contourCheck (t.core (coreOfKey s.cur)).contours c.va (leBytes 32 (th.getV v).toNat) = (cs, .pass data) →
    let t' := t.setCore (coreOfKey s.cur) { t.core (coreOfKey s.cur) with contours := cs }
    ∃ a : Access,
      exec i s = .next (t'.setThread s.cur ((if c.place = .atom then
        (th.addAccess { a with size := 16, data := (leBytes 32 data).take 16 }).addAccess
          { a with size := 16, va := c.va + 16, data := (leBytes 32 data).drop 16 }
        else th.addAccess a).next 4)) ∧
      t'.mem = s.mem ∧ t'.threads = s.threads ∧
      a.op = .store ∧ a.va = c.va ∧ a.info = ea ∧ a.size = 32 ∧ a.place = c.place ∧ a.ord = .plain ∧
      a.data = leBytes 32 data ∧ a.home = false ∧ a.dst = .none ∧
      a.state = .issued)

/-- 09 R238, R240, R241: the contour check of a write goes through the active registers in ascending order, each on the bytes
that the registers before it left. An element is checked when the write covers all of its bytes within the covered range; it is out
of range when it is a NaN, below LOW or above HIGH, and COUNT adds the number of those. FLAG leaves the bytes; CLAMP replaces exactly
the elements out of range by the code of the bound they pass, a NaN by that of LOW and a zero bound as +0; TRAP ends the write with
the register and the address of its first failing element, and no later register is applied. -/
def Obligations.ContourChecks : Prop :=
  ∀ (cs : Map Contour) (va : Nat) (bs : List Byte),
    ((∀ m : Nat, m < 16 → ((cs.find m).map (·.act)).getD 0 = 0) → contourCheck cs va bs = (cs, .pass (leNat bs))) ∧
    ∀ (n : Nat) (c : Contour), n < 16 → cs.find n = some c → (c.fmt ≤ 0x0C ∨ (0x14 ≤ c.fmt ∧ c.fmt ≤ 0x16)) →
      c.base % 64 = 0 → boundAdmitted c.fmt c.low = true → boundAdmitted c.fmt c.high = true →
      (∀ m : Nat, m < n → ((cs.find m).map (·.act)).getD 0 = 0) →
      let w := fmtWidth c.fmt
      let pos (j : Nat) : Nat := 8 * c.base + w * j - 8 * va
      let covered (j : Nat) : Prop :=
        8 * Nat.max va c.base ≤ 8 * c.base + w * j ∧ 8 * c.base + w * (j + 1) ≤ 8 * Nat.min (va + bs.length) c.limit
      let code (ds : List Byte) (j : Nat) : Nat := leNat ds / 2 ^ pos j % 2 ^ w
      let below (j : Nat) : Prop :=
        (fmtValue c.fmt (code bs j)).isNan = true ∨ lessThan (fmtValue c.fmt (code bs j)) (boundValue c.fmt c.low)
      let above (j : Nat) : Prop := lessThan (boundValue c.fmt c.high) (fmtValue c.fmt (code bs j))
      let bad : Set Nat := { j | covered j ∧ (below j ∨ above j) }
      let counted : Contour := { c with count := BitVec.ofNat 32 (Nat.min 0xFFFFFFFF (c.count.toNat + bad.ncard)) }
      let off : Map Contour := cs.put n { c with act := 0 }
      let written (bound : Word) : Nat :=
        if isFinite (boundValue c.fmt bound) = true ∧ valueQ (boundValue c.fmt bound) = 0 then 0
        else (convert c.fmt .rne (boundValue c.fmt bound)).1
      let goesOn (ds : List Byte) : Prop :=
        (contourCheck cs va bs).2 = (contourCheck off va ds).2 ∧
        ∀ m : Nat, (contourCheck cs va bs).1.find m = if m = n then some counted else (contourCheck off va ds).1.find m
      (c.act = 1 ∨ (c.act = 3 ∧ bad = ∅) → goesOn bs) ∧
      (c.act = 2 → ∃ ds : List Byte, ds.length = bs.length ∧ goesOn ds ∧
        (∀ j : Nat, covered j → (below j → code ds j = written c.low) ∧ (¬ below j → above j → code ds j = written c.high) ∧
          (¬ below j → ¬ above j → code ds j = code bs j)) ∧
        ∀ b : Nat, (∀ j ∈ bad, b < pos j ∨ pos j + w ≤ b) → (leNat ds).testBit b = (leNat bs).testBit b) ∧
      (c.act = 3 → bad ≠ ∅ → ∃ j ∈ bad, (∀ k ∈ bad, j ≤ k) ∧
        (contourCheck cs va bs).2 = .trap n (c.base + w * j / 8) ∧
        ∀ m : Nat, (contourCheck cs va bs).1.find m = if m = n then some counted else cs.find m)

/-- 09 R225 to R227, 05 R128, R130: an atomic that passes its checks issues one access with its operation, operand and
comparand e0 (for ACASQ 128 bits from X[B + 1] and X[B] and from e1 and e0), whose old value will fill X[D], or X[D] and
X[D + 1]; it steps on, and memory is unchanged until it performs. -/
def Obligations.AtomicsIssue : Prop :=
  (∀ (i : Instr) (s : State) (th : Thread) (op : Nat) (o : AOrd) (sc : AScope) (g : Bool) (d a b : Reg) (t : State)
      (c : Checked),
    atomicOf i = some (op, o, sc, g, d, a, b) → Issues i s th →
    Reaches i s th (th.getX a).toNat 8 8
      (descriptor 2 3 (if g then 1 else 0) (ordCode o) (scopeBits o (scopeOf sc)) 0 0 b.val 0 0 d.val) .atomic t c →
    ∃ x : Access, exec i s = .next (t.setThread s.cur ((th.addAccess x).next 4)) ∧
      t.mem = s.mem ∧ t.threads = s.threads ∧
      x.op = .atomic op (th.getX b) (th.getE 0) ∧ x.va = c.va ∧ x.size = 8 ∧ x.place = c.place ∧ x.home = g ∧
      x.ord = o ∧ x.scope = scopeOf sc ∧ x.dst = .x d 8 false (th.getTaint a || th.getTaint b) ∧ x.state = .issued) ∧
  (∀ (g : Guard) (o : AOrd) (sc : AScope) (d a b : Reg) (s : State) (th : Thread) (t : State) (c : Checked),
    let b1 : Reg := regNat (b.val + 1)
    Issues (.acasq g o sc d a b) s th →
    Reaches (.acasq g o sc d a b) s th (th.getX a).toNat 16 16
      (descriptor 2 4 0 (ordCode o) (scopeBits o (scopeOf sc)) 0 0 b.val 0 0 d.val) .casq t c →
    ∃ x : Access, exec (.acasq g o sc d a b) s = .next (t.setThread s.cur ((th.addAccess x).next 4)) ∧
      t.mem = s.mem ∧ t.threads = s.threads ∧
      x.op = .casq (th.getX b1 ++ th.getX b) (th.getE 1 ++ th.getE 0) ∧ x.va = c.va ∧ x.size = 16 ∧ x.place = c.place ∧
      x.ord = o ∧ x.scope = scopeOf sc ∧ x.dst = .pair d (th.getTaint a || th.getTaint b || th.getTaint b1) ∧
      x.state = .issued)

/-- 05 R118 to R122, R126, R128, 04 R112, 09 R219, R222, R226, R227, 10 R257: the step of an access, of at least one byte, at its
place. A load, scalar or vector, binds the bytes of its place: of the L1 line that admits it, else of the die's copy, else of its home, of which a die other
than the home's enters a clean copy; the L1 takes the line. A store writes exactly its bytes: to a line homed on another die into the
die's copy, and not to its home. An atomic, and a compare and swap of 16 bytes, writes what its operation gives and hands the old
value to its destination, x0 discarding it: at once at a single place and at the unit of an ATOM page, after its acknowledgement when
performed at the home of a line. An acquire at .k or above leaves only sealed lines in the L1. -/
def Obligations.AccessesPerform : Prop :=
  ∀ (s : State) (t : Nat) (th : Thread) (a : Access), s.thread t = some th → th.access a.id = some a → th.before a = [] →
    a.lost = false → 0 < a.size →
    let c := coreOfKey t
    let gone (u : Thread) : Thread := { u with acc := u.acc.filter fun b => b.id != a.id }
    let p := th.part
    let die := dieOfCore c
    let line := lineOf a.va
    let off := a.va % 64
    let registers : Prop := (∃ d n sg taint, a.dst = .x d n sg taint) ∨ ∃ d o, a.dst = .v d o
    let plainDst : Prop := registers ∨ a.dst = .none ∨ ∃ d taint, a.dst = .pair d taint
    let ready : Prop := s.lacksXlate t th a = false ∧ s.hostWaits p die line = false
    let sized : Prop := match a.op with
      | .load => True
      | .store => a.size = a.data.length
      | .atomic .. => a.size = 8
      | .casq .. => a.size = 16
    let leaves (old : List Byte) : List Byte := match a.op with
      | .load => old
      | .store => a.data
      | .atomic op b cmp => leBytes 8 (atomicLeaves op (BitVec.ofNat 64 (leNat old)) b cmp).toNat
      | .casq new cmp => if leNat old = cmp.toNat then leBytes 16 new.toNat else old
    let whole (pa : Nat) : Prop :=
      (s.homeData p line pa).data.length = 64 ∧ (pa < 2 ^ 40 ∨ (s.part p).homeOf controlDie line = none)
    let others (s' : State) : Prop := ∀ die' line' : Nat, line' ≠ line → (s'.part p).homeOf die' line' = (s.part p).homeOf die' line'
    let kept (s' : State) (pa n : Nat) : Prop :=
      (s.part p).proof.marked = [] → ∀ x : Nat, x < pa ∨ pa + n ≤ x → s'.mem.read x = s.mem.read x
    let leavesWith (s' : State) (bs : List Byte) : Prop :=
      ∃ v u : Thread, Receives a.dst bs th v ∧ s'.thread t = some u ∧ u = { gone v with wait := u.wait }
    let acquires (s' : State) : Prop :=
      (a.ord = .acq ∨ a.ord = .ar) → a.scope ≠ .t → a.scope ≠ .c → ∀ n ∈ s.l1Portions c, ∀ x ∈ (s'.core n).l1, x.isSealed = true
    let filled (s' : State) (data : List Byte) : Prop :=
      a.ord = .plain → (∀ x, s.l1Line c p line = some x → x.isSealed = false) → (s.core (s.l1Core c line)).clsNow < 5 →
        ∃ x, s'.l1Line c p line = some x ∧ x.data = data ∧ x.isSealed = a.isSealed
    (∀ pa : Nat, a.state = .issued → a.op = .load → a.place = .single pa → registers → plainPlace pa a.size →
      s.isPoisoned pa = false →
      Answers (.bind t a.id) s fun s' =>
        s'.mem = s.mem ∧ s'.parts = s.parts ∧ leavesWith s' (s.load pa a.size) ∧ acquires s') ∧
    (a.state = .issued → a.op = .load → a.place = .line → a.home = false → registers →
      let usable := (s.l1Line c p line).filter fun l => l.isSealed || a.l1ok
      (∀ l : CacheLine, usable = some l → l.bad = false → s.hostWaits p die line = false →
        Answers (.bind t a.id) s fun s' =>
          s'.mem = s.mem ∧ s'.parts = s.parts ∧ leavesWith s' ((l.data.drop off).take a.size) ∧ acquires s') ∧
      (∀ (g : Page) (y : CopyLine), usable = none → ready → linePage s p die line false = .ok g →
        (s.part p).copyOf die line = some y → y.bad = false →
        Answers (.bind t a.id) s fun s' => s'.mem = s.mem ∧ others s' ∧
          (s'.part p).copyOf die line = some y ∧ leavesWith s' ((y.data.drop off).take a.size) ∧ acquires s' ∧ filled s' y.data) ∧
      (∀ g : Page, usable = none → ready → linePage s p die line false = .ok g → (s.part p).copyOf die line = none →
        whole (g.place line) → (s.homeData p line (g.place line)).bad = false →
        let data := (s.homeData p line (g.place line)).data
        Answers (.bind t a.id) s fun s' => s'.mem = s.mem ∧ others s' ∧ leavesWith s' ((data.drop off).take a.size) ∧
          acquires s' ∧ filled s' data ∧
          (homeDie (g.place line) ≠ die → die ≠ controlDie →
            ∃ y : CopyLine, (s'.part p).copyOf die line = some y ∧ y.data = data ∧ y.dirty = 0))) ∧
    (∀ pa : Nat, a.state = .issued → a.op ≠ .load → a.place = .single pa → plainDst → sized → plainPlace pa a.size →
      (a.op = .store ∨ s.isPoisoned pa = false) →
      Answers (.perform0 t a.id) s fun s' => s'.load pa a.size = leaves (s.load pa a.size) ∧
        (∀ x : Nat, x < pa ∨ pa + a.size ≤ x → s'.mem.read x = s.mem.read x) ∧
        leavesWith s' (s.load pa a.size) ∧ acquires s') ∧
    (∀ g : Page, a.state = .issued → a.op = .store → a.ord = .plain → a.place = .line → a.home = false → a.dst = .none →
      a.size = a.data.length → off + a.size ≤ 64 → ready → linePage s p die line true = .ok g → whole (g.place line) →
      Answers (.perform0 t a.id) s fun s' => others s' ∧
        (∃ u : Thread, s'.thread t = some u ∧ (line, a.fpc) ∈ u.wset ∧
          u = { gone th with wset := u.wset, wait := u.wait }) ∧
        (homeDie (g.place line) = die →
          ((s'.homeData p line (g.place line)).data.drop off).take a.size = a.data ∧ kept s' (g.place line) 64) ∧
        (homeDie (g.place line) ≠ die → die ≠ controlDie →
          (∀ y, (s.part p).copyOf die line = some y → y.data.length = 64) →
          s'.mem = s.mem ∧ s'.homeData p line (g.place line) = s.homeData p line (g.place line) ∧
          ∃ y : CopyLine, (s'.part p).copyOf die line = some y ∧ (y.data.drop off).take a.size = a.data ∧
            ∀ i : Nat, i < a.size → y.dirty.getLsbD (off + i) = true)) ∧
    (∀ g : Page, a.state = .issued → a.place = .atom → plainDst → sized → a.atom = true → ready →
      translate s p die line a.writes = .ok g → g.atom = true → (a.writes = true → g.w = true) →
      (a.op = .store ∨ s.isPoisoned (g.place a.va) = false) →
      let old := s.load (g.place a.va) a.size
      Answers (.atomicUnitOperation t a.id) s fun s' =>
        s'.load (g.place a.va) a.size = leaves old ∧ kept s' (g.place a.va) a.size ∧ leavesWith s' old ∧ acquires s') ∧
    (∀ g : Page, a.state = .issued → a.place = .line → (a.op = .store ∧ a.home = true ∨ ∃ op b cmp, a.op = .atomic op b cmp) →
      sized → off + a.size ≤ 64 → ready →
      linePage s p die line true = .ok g → whole (lineOf (g.place a.va)) →
      (s.part p).copyDies line = [] → (a.op = .store ∨ (s.homeData p line (lineOf (g.place a.va))).bad = false) →
      Answers (.performHome t a.id) s fun s' => others s' ∧ kept s' (lineOf (g.place a.va)) 64 ∧
        s'.homeBytes p a.va (g.place a.va) a.size = leaves (s.homeBytes p a.va (g.place a.va) a.size) ∧
        ∃ u : Thread, s'.thread t = some u ∧ u = { th with wait := u.wait, acc := th.acc.map fun b => if b.id = a.id then
          { b with state := .performed (s.homeBytes p a.va (g.place a.va) a.size) } else b }) ∧
    (∀ old : List Byte, a.state = .performed old → a.place = .line → (a.op = .store ∨ ∃ op b cmp, a.op = .atomic op b cmp) →
      sized → plainDst → s.lacksXlate t th a = false →
      Answers (.complete t a.id) s fun s' => s'.mem = s.mem ∧ s'.parts = s.parts ∧ acquires s' ∧
        (∀ x : CacheLine, s.l1Line c p line = some x → a.ord = .plain → x.data.length = 64 → off + a.size ≤ 64 →
          (s.core (s.l1Core c line)).clsNow < 5 → a.result old ≠ none →
          ∃ y : CacheLine, s'.l1Line c p line = some y ∧ (y.data.drop off).take a.size = leaves old) ∧
        ∃ v u : Thread, Receives a.dst old th v ∧ s'.thread t = some u ∧ u = { gone v with wset := u.wset, aset := u.aset } ∧
          (if a.op = .store ∨ a.home = true then u.wset = th.wset ∧ u.aset = th.aset
           else (line, a.fpc) ∈ u.wset ∧ line ∈ u.aset))

/-! ## Ordering, waiting and caches -/

/-- 05 R126, R127, 09 R228, R230 to R236: FENCE drops the unsealed L1 lines at .k and above; WAITV compares its register with the word
at its place, for a cacheable line at its home, and watches it while they are equal, but completes at once on another node's
address, and with a deferred cause where its translation is refused; SEMP takes its amount or queues, SEMV adds and serves the head of
the waiters; BARW arrives, or ends with status 2 outside its own mask, and completes with the status it is given; RWAIT waits for
slots and RADV moves them. A task thread parks in WAITV and RWAIT, others wait in their slot. Each completes at the next
instruction. -/
def Obligations.Synchronisation : Prop :=
  ∀ (g : Guard) (s : State) (th : Thread),
    let c := coreOfKey s.cur
    let k := s.core c
    let die := dieOfCore c
    let waits (w : Wait) : Out := .next (s.setThread s.cur { th with wait := w })
    let on : Thread := { th with wait := .none }
    let parks (i : Instr) (t : State) (w : Wait) : Prop :=
      ∀ (tc n : Nat) (tk : Task) (room : State), th.parks = true → th.task = some (tc, n) → th.deferred = [] → th.acc = [] →
        (t.core c).mx = none → ParkAreaFits t tc → t.parkRoom tc th = some room → (room.cluster tc).tasks.find n = some tk →
        Answers i s fun u => u.thread s.cur = none ∧ ImageParked u tc n th ∧
          (∃ v : Thread, (u.cluster tc).parked.find n = some v ∧ v.pc = th.pc ∧ v.x = th.x ∧ v.wait = w) ∧
          ∃ tk' : Task, (u.cluster tc).tasks.find n = some tk' ∧ tk'.state = .parked
    (∀ sc : Scope, Issues (.fence g sc) s th → k.fused = none →
      Answers (.fence g sc) s fun t => t.mem = s.mem ∧ t.thread s.cur = some (th.next 4) ∧
        (t.core c).l1 = (if sc = .t ∨ sc = .c then k.l1 else k.l1.filter (·.isSealed))) ∧
    (∀ (a b : Reg) (t : State) (x : Checked), Issues (.waitv g a b) s th →
      Reaches (.waitv g a b) s th (th.getX a).toNat 8 8 (descriptor 7 3 0 0 0 0 5 0 0 0 0) .waitv t x →
      let watches (pa : Nat) (w : Word) : Prop :=
        (w ≠ th.getX b → exec (.waitv g a b) s = .next (t.setThread s.cur (on.next 4))) ∧
        (w = th.getX b → th.parks = false →
          exec (.waitv g a b) s = .next (t.setThread s.cur { th with wait := .watch (lineOf pa) })) ∧
        (w = th.getX b → parks (.waitv g a b) t (.watch (lineOf pa)))
      (∀ pa : Nat, x.place = .single pa → plainPlace pa 8 → watches pa (s.loadWord pa)) ∧
      (x.place = .line ∨ x.place = .atom → t.hostWaits th.part die x.va = false →
        (∀ pg : Page, checkedPage t th.part die x false = .ok pg →
          watches (pg.place x.va) (if x.atom then t.loadWord (pg.place x.va)
            else BitVec.ofNat 64 (leNat (t.homeBytes th.part x.va (pg.place x.va) 8)))) ∧
        ∀ r : Refused, checkedPage t th.part die x false = .error r →
          Answers (.waitv g a b) s fun u => u.mem = s.mem ∧ ∃ v : Thread, u.thread s.cur = some v ∧ v.pc = (th.next 4).pc ∧
            v.x = th.x ∧ ∃ d : Deferred, v.deferred = th.deferred ++ [d] ∧ d.cause = r.cause ∧ d.info = th.getX a)) ∧
    (∀ (a b : Reg) (t : State) (x : Checked), Issues (.waitv g a b) s th → th.wait = .none →
      th.overlapDeferred (s.reach (th.getX a).toNat) 8 = false → th.overlapWait (s.reach (th.getX a).toNat) 8 = false →
      checkAccess s s.cur th (.waitv g a b) (th.getX a).toNat 8 8 (descriptor 7 3 0 0 0 0 5 0 0 0 0) .waitv = .ok (t, x) →
      t.migratesTo th x.va x.homerun false = none → x.place = .remote →
      exec (.waitv g a b) s = .next (t.setThread s.cur (on.next 4))) ∧
    (∀ a b : Reg, Issues (.waitv g a b) s th → th.wait = .woken →
      exec (.waitv g a b) s = .next (s.setThread s.cur (on.next 4))) ∧
    (∀ (n : Fin 4) (a : Reg), Issues (.semp g n a) s th →
      let at_ := windowPlace c (semOffset n.val)
      (th.wait = .none → th.getX a ≠ 0 → (∀ w ∈ k.semWait, w.2 ≠ n.val) → (th.getX a).toNat ≤ (s.loadWord at_).toNat →
        exec (.semp g n a) s = .next ((s.storeWord at_ (s.loadWord at_ - th.getX a)).setThread s.cur (on.next 4))) ∧
      (th.wait = .none → th.getX a ≠ 0 →
        ((∃ w ∈ k.semWait, w.2 = n.val) ∨ (s.loadWord at_).toNat < (th.getX a).toNat) →
        exec (.semp g n a) s = .next ((s.setCore c { k with semWait := k.semWait ++ [(s.cur, n.val)] }).setThread s.cur
          { th with wait := .sem n.val (th.getX a) })) ∧
      (th.wait = .woken ∨ th.getX a = 0 → exec (.semp g n a) s = .next (s.setThread s.cur (on.next 4)))) ∧
    (∀ (n : Fin 4) (a : Reg), Issues (.semv g n a) s th → k.semWait = [] →
      let at_ := windowPlace c (semOffset n.val)
      Answers (.semv g n a) s fun t => t.loadWord at_ = s.loadWord at_ + th.getX a ∧ t.thread s.cur = some (th.next 4) ∧
        ∀ x : Nat, x < at_ ∨ at_ + 8 ≤ x → t.mem.read x = s.mem.read x) ∧
    (∀ (n : Fin 4) (a : Reg) (t0 : Nat) (amount : Word) (th0 : Thread) (rest : List (Nat × Nat)),
      Issues (.semv g n a) s th → th.wait = .none → k.semWait = (t0, n.val) :: rest → t0 ≠ s.cur → s.thread t0 = some th0 →
      th0.wait = .sem n.val amount →
      let at_ := windowPlace c (semOffset n.val)
      let v := s.loadWord at_ + th.getX a
      (amount.toNat ≤ v.toNat → (∀ w ∈ rest, w.2 ≠ n.val) →
        Answers (.semv g n a) s fun t => t.loadWord at_ = v - amount ∧ t.thread t0 = some { th0 with wait := .woken } ∧
          (t.core c).semWait = rest ∧ t.thread s.cur = some (th.next 4)) ∧
      (v.toNat < amount.toNat → Answers (.semv g n a) s fun t => t.loadWord at_ = v ∧ t.thread t0 = some th0 ∧
        (t.core c).semWait = k.semWait ∧ t.thread s.cur = some (th.next 4))) ∧
    (∀ (ch : Fin 4) (d a b : Reg) (n : Nat) (gang : Gang), Issues (.barw g ch d a b) s th → th.gang = some n →
      s.gangs.find n = some gang → th.wait = .none →
      let mask := (th.getX a).toNat &&& gang.occupied
      let own := maskBit gang.die (clusterOfCore c)
      (mask.testBit own = true → exec (.barw g ch d a b) s =
        waits (.barrier ch.val mask (wbits (th.getX b) 3 0) (wbits (th.getX b) 63 32) false s.now false d
          (th.getTaint a || th.getTaint b))) ∧
      (mask.testBit own = false → exec (.barw g ch d a b) s =
        .next (s.setThread s.cur ((on.setX d 2 (th.getTaint a || th.getTaint b)).next 4)))) ∧
    (∀ (ch : Fin 4) (d a b : Reg) (n : Nat), Issues (.barw g ch d a b) s th → th.wait = .status n →
      exec (.barw g ch d a b) s = .next ((if n = 0 then s.acquire c .d else s).setThread s.cur
        ((on.setX d (BitVec.ofNat 64 n) (th.getTaint a || th.getTaint b)).next 4))) ∧
    (∀ (side : RSide) (h : Handle) (n : BitVec 11), Issues (.rwait g side h n) s th → (s.ringOf th h).en = true →
      n.toNat ≤ (s.ringOf th h).slotm1 + 1 → th.wait = .none →
      let have_ := match side with
        | .filled => (s.ringOf th h).filled
        | .free => (s.ringOf th h).free
      (n.toNat ≤ have_ → exec (.rwait g side h n) s = .next ((s.acquire c .k).setThread s.cur (on.next 4))) ∧
      (have_ < n.toNat → th.parks = false →
        exec (.rwait g side h n) s = waits (.ring th.homeCluster h.val side n.toNat)) ∧
      (have_ < n.toNat → parks (.rwait g side h n) s (.ring th.homeCluster h.val side n.toNat))) ∧
    (∀ (side : RSide) (h : Handle) (n : BitVec 11), Issues (.radv g side h n) s th →
      let r := s.ringOf th h
      r.en = true → n.toNat ≤ (match side with | .filled => r.filled | .free => r.free) →
      Answers (.radv g side h n) s fun t => t.mem = s.mem ∧ (∃ u : Thread, t.thread s.cur = some u ∧ u.pc = (th.next 4).pc) ∧
        (t.cluster th.homeCluster).ring h.val =
          (match side with
            | .filled => { r with
                rd := (r.rd + n.toNat) % (r.slotm1 + 1), free := r.free + n.toNat, filled := r.filled - n.toNat }
            | .free => { r with
                wr := (r.wr + n.toNat) % (r.slotm1 + 1), filled := r.filled + n.toNat, free := r.free - n.toNat }))

/-- 09 R229, R237 to R239, 04 R113, R114: CWB publishes its line and writes it back from its home, and CINV drops it from L1,
once no access of the thread to it is outstanding; IINV drops it from the instruction cache, IFB the halfwords fetched ahead; on
a line that is not cacheable the data forms do nothing. SEAL records its region and UNSEAL removes it, both ending the PLB
entries for it. CTSET sets a register with COUNT 0 and CTCLR reads ACT and COUNT and clears it. The model's choices: an address outside
the map counts as not cacheable for CWB and CINV (log entry 90), and IFB drops the halfwords fetched ahead (log entry 51). -/
def Obligations.CachesAndContours : Prop :=
  ∀ (g : Guard) (a : Reg) (s : State) (th : Thread),
    let c := coreOfKey s.cur
    let k := s.core c
    let va := (th.getX a).toNat
    let line := lineOf va
    let next_ (t : State) : Out := .next (t.setThread s.cur (th.next 4))
    let skips (t : State) : Prop :=
      (Issues (.cwb g a) s th → exec (.cwb g a) s = next_ t) ∧ (Issues (.cinv g a) s th → exec (.cinv g a) s = next_ t)
    (∀ (t : State) (e : PlbEntry), nameOf va = .translated → plbLookup s c th.part th.dom va = .ok (some e, t) →
      (e.rights.rd = true → e.rights.atom = false → (∀ x ∈ th.acc, lineOf x.va ≠ line) →
        (Issues (.cwb g a) s th → t.unreachable th.part (dieOfCore c) line = false →
          exec (.cwb g a) s = .next (((t.publish th.part (dieOfCore c) line (th.aset.contains line)).flushHomes th.part false
            (·.line == line)).setThread s.cur
            ({ th with wset := th.wset.filter (·.1 != line), aset := th.aset.filter (· != line) }.next 4))) ∧
        (Issues (.cinv g a) s th → k.fused = none → Answers (.cinv g a) s fun u =>
          u.mem = s.mem ∧ u.thread s.cur = some (th.next 4) ∧
          (u.core c).l1 = k.l1.filter fun l => !(l.part == th.part && l.line == line))) ∧
      (e.rights.rd = true → e.rights.atom = true → skips t) ∧
      (e.rights.x = true → Issues (.iinv g a) s th → Answers (.iinv g a) s fun u =>
        u.mem = s.mem ∧ u.thread s.cur = some (th.next 4) ∧
        (u.core c).icache = k.icache.filter fun l => !(l.part == th.part && l.line == line))) ∧
    (nameOf va ≠ .translated → skips s ∧ (Issues (.iinv g a) s th → exec (.iinv g a) s = next_ s)) ∧
    (Issues (.ifb g) s th → exec (.ifb g) s = .next (s.setThread s.cur ({ th with ahead := [] }.next 4))) ∧
    (∀ (t : State) (e : PlbEntry), sealRegion s th va = .ok (t, e) →
      let ends (u : State) : Prop := u.thread s.cur = some (th.next 4) ∧
        ∀ n : Nat, ∀ x ∈ (u.core n).plb, ¬ (x.part = th.part ∧ x.base = e.base ∧ x.log2 = e.log2)
      (Issues (.sealR g a) s th → (s.part th.part).seals.length < 32 → s.pkg.failedGroups = [] →
        (t.performBegun th.part e.base e.log2).pendingIn th.part e.base e.log2 = none →
        (t.performBegun th.part e.base e.log2).homePending th.part e.base e.log2 = false →
        Answers (.sealR g a) s fun u => ends u ∧ (u.part th.part).seals.contains (e.base, e.log2) = true ∧
          (∀ y ∈ (u.part th.part).copies, inRegion e.base e.log2 y.line = false) ∧
          (∀ n : Nat, ∀ l ∈ (u.core n).l1, ¬ (l.part = th.part ∧ inRegion e.base e.log2 l.line = true))) ∧
      (Issues (.unsealR g a) s th → t.pendingIn th.part e.base e.log2 = none →
        t.homePending th.part e.base e.log2 = false →
        Answers (.unsealR g a) s fun u => ends u ∧ u.mem = s.mem ∧
          (u.part th.part).seals.contains (e.base, e.log2) = false ∧
          (∀ y ∈ (u.part th.part).copies, inRegion e.base e.log2 y.line = true → y.isSealed = false) ∧
          (∀ n : Nat, ∀ l ∈ (u.core n).l1,
            ¬ (l.part = th.part ∧ inRegion e.base e.log2 l.line = true ∧ l.isSealed = true)))) ∧
    (∀ n : Fin 16, Issues (.ctset g n a) s th → ctlLegal (th.getX a) = true →
      let fmt := wbits (th.getX a) 4 0
      let act := wbits (th.getX a) 6 5
      (act = 0 ∨ (boundAdmitted fmt (th.getE 2) = true ∧ boundAdmitted fmt (th.getE 3) = true ∧
        (boundValue fmt (th.getE 2)).cmp (boundValue fmt (th.getE 3)) ≤ 0)) →
      Answers (.ctset g n a) s fun t => t.mem = s.mem ∧ t.thread s.cur = some (th.next 4) ∧
        (∀ m : Nat, m ≠ n.val → (t.core c).contour m = k.contour m) ∧
        (t.core c).contour n.val = ⟨wbits (th.getE 0) 55 6 * 64, wbits (th.getE 1) 55 6 * 64, th.getE 2, th.getE 3, fmt, act,
          0⟩) ∧
    (∀ (d : Reg) (n : Fin 16), Issues (.ctclr g d n) s th →
      let ct := k.contour n.val
      Answers (.ctclr g d n) s fun t => t.mem = s.mem ∧
        t.thread s.cur = some ((th.setX d (BitVec.ofNat 64 ((if ct.act = 0 then 0 else 2 ^ 32) + ct.count.toNat)) false).next 4) ∧
        (∀ m : Nat, m ≠ n.val → (t.core c).contour m = k.contour m) ∧
        ((t.core c).contour n.val).act = 0 ∧ ((t.core c).contour n.val).count = 0)

/-- 05 R119 to R121, 04 R93, R102, R105, R109: FORWARD writes a copy's dirty bytes to its home and cleans it; REMOVE drops a
clean copy; an L1 line that is replaced is gone; a PLB refill enters the region of an address; a walk for an access that waits for
it enters the page of the line, and enters nothing where the access is refused; and a host write to a cached line leaves no copy of
it, in an L1 or an L2, and the host's bytes at its place. -/
def Obligations.LinesAndTranslations : Prop :=
  ∀ (s : State) (p e l c va : Nat),
    let line := lineOf l
    (∀ y : CopyLine, (s.part p).copyOf e line = some y → y.dirty ≠ 0 → s.pkg.failedGroups.contains (y.pa / 2 ^ 35) = false →
      y.data.length = 64 → (y.pa < 2 ^ 40 ∨ (s.part p).homeOf controlDie line = none) → (s.part p).proof.marked = [] →
      let old := (s.homeData p line y.pa).data
      old.length = 64 →
      Answers (.forward p e l) s fun t =>
        (t.part p).copyOf e line = some { y with dirty := 0 } ∧
        (∀ i : Nat, i < 64 → (t.homeData p line y.pa).data[i]? = if y.dirty.getLsbD i then y.data[i]? else old[i]?) ∧
        (∀ d' l' : Nat, l' ≠ line → (t.part p).homeOf d' l' = (s.part p).homeOf d' l') ∧
        ∀ x : Nat, x < y.pa ∨ y.pa + 64 ≤ x → t.mem.read x = s.mem.read x) ∧
    (∀ y : CopyLine, (s.part p).copyOf e line = some y → y.dirty = 0 →
      Answers (.remove p e l) s fun t => t.mem = s.mem ∧ (t.part p).copyOf e line = none ∧
        ∀ e' l' : Nat, ¬ (e' = e ∧ l' = line) → (t.part p).copyOf e' l' = (s.part p).copyOf e' l') ∧
    exec (.l1LineDrop c p l) s = .next (s.setCore c { s.core c with
      l1 := (s.core c).l1.filter fun x => !(x.part == p && x.line == line) }) ∧
    (∀ (dom : Nat) (b n : Nat) (r : Rights), s.ownerOfGranule (granuleOfCore c) = some p →
      (s.core c).plb.find? (·.covers p dom va) = none → regionFor s p (dieOfCore c) dom va = .ok (some (b, n, r)) →
      Answers (.plbRefill c dom va) s fun t =>
        t.mem = s.mem ∧ (t.core c).plb.head? = some ⟨p, dom, b, n, r, (s.part p).seals.contains (b, n)⟩ ∧
        (t.core c).plb.length ≤ 64) ∧
    (∀ a : Access, s.walkFor p e (lineOf va) = some a →
      (∀ g : Page, walk s p (lineOf a.va) a.writes = .ok g → a.verdict (.ok g) = none →
        Answers (.translationWalk p e va) s fun t => t.mem = s.mem ∧
          (t.part p).xcache.head? = some ⟨e, (s.part p).sliceOf e (lineOf va), g.va, g.size, g.pa, g.w, g.atom, g.level⟩ ∧
          ∀ x ∈ walkPath s p (lineOf va) 5 0 (s.part p).s1root, x ∈ t.pkg.walkers) ∧
      (∀ r : Refused, a.verdict (walk s p (lineOf a.va) a.writes) = some r →
        Answers (.translationWalk p e va) s fun t =>
          t.mem = s.mem ∧ (t.part p).xcache = (s.part p).xcache ∧ t.pkg.walkers = s.pkg.walkers)) ∧
    (∀ data : List Byte, data.length ≤ 64 - va % 64 → s.pkg.failedGroups = [] → (s.part p).proof.marked = [] →
      Answers (.hostWriteToCachedLine p va data) s fun t => t.load (hostPlace p va) data.length = data ∧
        (∀ y ∈ (t.part p).copies, y.pa ≠ hostPlace p (lineOf va)) ∧
        (∀ n : Nat, ∀ y ∈ (t.core n).l1, ¬ (y.part = p ∧ y.pa = hostPlace p (lineOf va))) ∧
        ((∀ y ∈ (s.part p).copies, y.pa = hostPlace p (lineOf va) →
            ∀ y' ∈ (s.part p).copies, y'.die = y.die → y'.line = y.line → y'.dirty = 0) →
          ∀ x : Nat, x < hostPlace p va ∨ hostPlace p va + data.length ≤ x → t.mem.read x = s.mem.read x))

/-- 12 R302, R303, 04 R89, 15 R337, 20 R439: RLD and RST go to the home of their address, where a step of its own performs
them, the thread waiting for the answer, which completes them; to another node they leave as a read request or a write by the
injection queue; a refusal takes REMOTE. RLD.f puts a future in X[D] that the access will resolve. The model's choices: the step at the
home, for which the thread waits (log entry 15), and the contour check of a remote store, on its fabric address (log entry 60). -/
def Obligations.RemoteAccesses : Prop :=
  ∀ (g : Guard) (w : Width) (d a b : Reg) (s : State) (th : Thread),
    let ea := (th.getX a).toNat
    let n := widthBytes w
    let c := coreOfKey s.cur
    let on : Thread := { th with wait := .none }
    let stDesc := descriptor 1 (Nat.log2 n) 0 0 0 0 0 b.val 0 0 0
    let blocked (t : State) : State :=
      if th.parks = true then t.park s.cur { th with nextId := th.nextId + 1 } .home
      else t.setThread s.cur { th with nextId := th.nextId + 1, wait := .home }
    let sent (t : State) (x : Access) : Out :=
      .next { blocked t with homeOps := (blocked t).homeOps ++ [⟨c, th.part, th.waiter s.cur, x⟩] }
    let free : Prop := th.parks = true → th.acc = [] ∧ th.deferred = []
    (∀ lo hi : Word, th.wait = .value lo hi →
      (Issues (.rld g w d a) s th → exec (.rld g w d a) s = .next (s.setThread s.cur
        ((on.setX d (BitVec.ofNat 64 (lo.toNat % 2 ^ (8 * n))) (th.getTaint a)).next 4))) ∧
      (Issues (.rst g w a b) s th → exec (.rst g w a b) s = .next (s.setThread s.cur (on.next 4)))) ∧
    (∀ code : Nat, th.wait = .refused code →
      let r : Out := .next (s.takeTrap s.cur th
        ⟨.remote, BitVec.ofNat 64 ea, BitVec.ofNat 64 code, th.pc.toNat, th.pc.toNat, false, false, false, none⟩)
      (Issues (.rld g w d a) s th → exec (.rld g w d a) s = r) ∧ (Issues (.rst g w a b) s th → exec (.rst g w a b) s = r)) ∧
    (∀ (t : State) (x : Checked), Issues (.rld g w d a) s th → Reaches (.rld g w d a) s th ea n n (rldDesc n d) .load t x →
      th.touches x.va n = false → free →
      ∃ y : Access, exec (.rld g w d a) s = sent t y ∧ y.op = .load ∧ y.va = x.va ∧ y.size = n ∧ y.place = x.place ∧
        y.state = .issued) ∧
    (∀ (t : State) (x : Checked) (cs : Map Contour) (data : Nat), Issues (.rst g w a b) s th →
      Reaches (.rst g w a b) s th ea n n stDesc .store t x → th.touches x.va n = false → free →
      contourCheck (t.core c).contours x.va (leBytes n (th.getX b).toNat) = (cs, .pass data) →
      ∃ y : Access, exec (.rst g w a b) s = sent (t.setCore c { t.core c with contours := cs }) y ∧ y.op = .store ∧
        y.va = x.va ∧ y.data = leBytes n data ∧ y.place = x.place ∧ y.state = .issued) ∧
    (∀ (k pa q : Nat) (o : HomeOp) (u : Thread), s.homeOps[k]? = some o → o.waiter = .slot q → s.thread q = some u →
      o.access.state = .issued → o.access.place = .single pa → plainPlace pa o.access.size →
      (s.homeTurn k).homeOps = s.homeOps.eraseIdx k ∧
      (o.access.op = .load → s.isPoisoned pa = false → (s.homeTurn k).mem = s.mem ∧
        (s.homeTurn k).thread q = some { u with wait := .value (BitVec.ofNat 64 (leNat (s.load pa o.access.size))) 0 }) ∧
      (o.access.op = .store → o.access.size = o.access.data.length →
        (s.homeTurn k).load pa o.access.size = o.access.data ∧ (s.homeTurn k).thread q = some { u with wait := .value 0 0 } ∧
        ∀ x : Nat, x < pa ∨ pa + o.access.size ≤ x → (s.homeTurn k).mem.read x = s.mem.read x)) ∧
    (∀ node off tag : Nat, nameOf ea = .fabric node off → node ≠ s.pkg.node → ea % n = 0 →
      th.wait = .none → th.deferred = [] → th.acc = [] → th.parks = false → s.freeTag c = some tag → (s.core c).injUsed < 16 →
      let leaves (ptype : Nat) (payload : List Byte) (u : State) : Prop :=
        u.mem = s.mem ∧ u.thread s.cur = some { th with wait := .reply tag } ∧
        (∃ o ∈ u.outstanding, o.core = c ∧ o.tag = tag ∧ o.waiter = some (.slot s.cur)) ∧
        ∃ (r : Record) (k : Packet), (u.core c).inj = (s.core c).inj ++ [r] ∧ r.request = some k ∧ r.size = 1 ∧
          k.ptype = ptype ∧ k.arg = ea ∧ k.len = n ∧ k.tag = tag ∧ endNode k.dest = node ∧
          k.src = endpoint s.pkg.node c ∧ k.payload = payload
      (Issues (.rld g w d a) s th → Answers (.rld g w d a) s (leaves 3 [])) ∧
      (∀ (cs : Map Contour) (data : Nat), Issues (.rst g w a b) s th →
        contourCheck (s.core c).contours ea (leBytes n (th.getX b).toNat) = (cs, .pass data) →
        Answers (.rst g w a b) s (leaves 5 (leBytes n data)))) ∧
    (∀ (t t' : State) (x : Checked) (f : Word), Issues (.rldF g w d a) s th →
      Reaches (.rldF g w d a) s th ea n n (rldDesc n d) .load t x →
      let cl := clusterOfCore c
      t.served cl th.part s.cur 0 = true → (t.unstall cl s.cur).allocate cl th.part false false .remote = (f, t') →
      ∃ y : Access, exec (.rldF g w d a) s =
          .next (t'.setThread s.cur (((on.setX d f (th.getTaint a)).next 4).addAccess y)) ∧
        y.op = .load ∧ y.dst = .future f ∧ y.home = true ∧ y.va = x.va ∧ y.size = n ∧ y.place = x.place ∧ y.state = .issued)

/-! ## Matrix instructions -/

/-- 11 R267, R270, R272, R276 to R279: MM and MMR, once the unit is free (for MMR with both latches full) and their checks
pass, occupy it with the captures of exactly the granules of A and of B (MMR: of both latches); a LATCH issues its 32
granules and a ZLD the granules of its tile; a ZST issues the tile in its format as granules, with the flags of its conversion
(MatrixUnit gives the bytes). ZCLR on a free unit sets every bit of its tile to 0, so that every element reads as +0 in FP32 and as 0
in INT32; it makes no access and changes no other byte of memory and no other tile. -/
def Obligations.MatrixIssue : Prop :=
  ∀ (s : State) (th : Thread) (g : Guard) (z : ZTile) (a b vs : Reg),
    let c := coreOfKey s.cur
    let k := s.core c
    let unit (j : MxJob) (l : List Access) : Out :=
      .next ((s.setCore c { k with mx := some j }).setThread s.cur ((th.addAll l).next 4))
    let clear (n : Nat) : Prop :=
      th.overlapDeferred (th.getX a).toNat (64 * n) = false ∧ th.overlapWait (th.getX a).toNat (64 * n) = false
    let captures (rs : List (Nat × Nat)) (offs : List Nat) : Prop :=
      ∀ x : Nat, x ∈ offs ↔ x % 64 = 0 ∧ ∃ r ∈ rs, r.1 / 64 ≤ x / 64 ∧ x / 64 ≤ (r.1 + r.2 - 1) / 64
    (∀ (pair : Fin 22) (u la : Bool),
      let base : Word := if la then BitVec.ofNat 64 (windowBase + latchOffset false) else th.getX a
      let off := base.toNat - windowBase
      let ps := (th.getX b).toNat
      let i := Instr.mm g pair z u la a b vs
      Issues i s th → k.mx = none → k.passOut = [] → base.toNat % 64 = 0 → windowBase ≤ base.toNat →
      (15 ≤ pair.val → ps % 4 = 0 ∧ 256 ≤ ps) →
      (∀ x ∈ granulesOf (if 15 ≤ pair.val then
          (List.range (pairPlanes pair.val)).map fun j => (base.toNat + j * ps, 256)
        else [(base.toNat, operandBytes pair.val (pairFmtA pair.val u))]), captureCheck s th i la x = none) →
      captureCheck s th i la base.toNat = none →
      ∃ (offs : List Nat) (j : MxJob), exec i s = unit j (offs.map (captureAccess th c)) ∧
        captures (rangesA pair.val u off ps ++ [(latchOffset true, bytesB pair.val)]) offs ∧
        j.op = .mm pair.val z u off ps ∧ j.slot = some (s.cur % 4) ∧ j.got = [] ∧ j.need = offs.length ∧ j.pass = false ∧
        ∀ n q : Nat, 3 ≤ pair.val → pair.val ≤ 11 → n < (if pair.val = 9 then 8 else 4) → q < 32 →
          scaleByte j.vscale n q = (lane 8 q (th.getV (regNat (vs.val + n)))).toNat) ∧
    (∀ (pair : Fin 22) (u : Bool), let i := Instr.mmr g pair z u b vs
      Issues i s th → pair.val < 15 → k.mx = none → k.passOut = [] → k.tfullA = true → k.tfullB = true →
      ∃ (offs : List Nat) (j : MxJob), exec i s = unit j (offs.map (captureAccess th c)) ∧
        captures [(latchOffset false, 2048), (latchOffset true, 2048)] offs ∧
        j.op = .mm pair.val z u (latchOffset false) (th.getX b).toNat ∧ j.slot = some (s.cur % 4) ∧ j.got = [] ∧
        j.need = 64 ∧ j.pass = true) ∧
    (∀ (right : Bool) (t : State) (l : List Access),
      let i := if right then Instr.latchB g a else Instr.latchA g a
      let base := (th.getX a).toNat
      Issues i s th → clear 32 → (∀ x ∈ k.latchJob, x.1 ≠ right) →
      bulkReads i th base (fun n => granuleDesc 4 (if right then 4 else 3) 0 0 n) (fun n => .latch right (64 * n)) (th.getTaint a)
        (List.range 32) s = .ok (t, l, none) →
      exec i s = .next ((t.setCore c { t.core c with latchJob := (t.core c).latchJob ++ [(right, s.cur)] }).setThread s.cur
        ((th.addAll l).next 4)) ∧
      l.length = 32 ∧ ∀ n : Nat, n < 32 → ∃ x : Access, l[n]? = some x ∧ x.op = .load ∧ x.size = 64 ∧
        x.dst = .latch right (64 * n)) ∧
    (∀ (fmt : Fin 32) (t : State) (l : List Access), let i := Instr.zld g z a fmt
      Issues i s th → k.mx = none → k.passOut = [] → clear (2 * fmtWidth fmt.val) →
      bulkReads i th (th.getX a).toNat (fun n => granuleDesc 5 2 z.val fmt.val n) (fun n => .unit (64 * n)) (th.getTaint a)
        (List.range (2 * fmtWidth fmt.val)) s = .ok (t, l, none) →
      ∃ j : MxJob, exec i s = .next ((t.setCore c { t.core c with mx := some j }).setThread s.cur ((th.addAll l).next 4)) ∧
        j.op = .zld z fmt.val ∧ j.slot = some (s.cur % 4) ∧ j.got = [] ∧ j.need = 2 * fmtWidth fmt.val ∧
        l.length = 2 * fmtWidth fmt.val) ∧
    (∀ (fmt : Fin 32) (t t' : State) (l l' : List Access), let i := Instr.zst g z a fmt
      let out := zstBytes fmt.val (s.tile c z)
      let bs := out.1 ++ out.2.1
      Issues i s th → i.wf = true → k.mx = none → k.passOut = [] →
      th.overlapDeferred (th.getX a).toNat bs.length = false → th.overlapWait (th.getX a).toNat bs.length = false →
      zstCheck i th z fmt.val (zstGranules (th.getX a).toNat out.1 out.2.1) s = ⟨t, l, none, none⟩ →
      (∀ x ∈ l, x.place = .line → s.hostWaits th.part (dieOfCore c) x.va = false) →
      zstWalks s.cur th l t = (t', l', none) →
      exec i s = .next (t'.setThread s.cur (((th.addAll l').raise out.2.2).next 4)) ∧ l' = l ∧
      l.length = (bs.length + 63) / 64 ∧
      ∀ (n : Nat) (x : Access), l[n]? = some x →
        x.op = .store ∧ x.info = ((th.getX a).toNat + 64 * n) % 2 ^ 64 ∧ x.size = Nat.min 64 (bs.length - 64 * n) ∧
        x.home = false ∧ x.ord = .plain ∧ x.dst = .none ∧ x.state = .issued ∧
        (k.contours = [] → x.data = (bs.drop (64 * n)).take 64)) ∧
    (Issues (.zclr g z) s th → k.mx = none → k.passOut = [] →
      Answers (.zclr g z) s fun t =>
        (∀ a : Nat, t.mem.read a = if ztilePlace c z 0 ≤ a ∧ a < ztilePlace c z 4096 then 0 else s.mem.read a) ∧
        t.tile c z = List.replicate 1024 0 ∧
        (∀ x ∈ t.tile c z, (∃ e : Int, fmtValue 0x00 x = .fin false 0 e) ∧ intValue 0x15 x = 0) ∧
        (∀ y : ZTile, y ≠ z → t.tile c y = s.tile c y) ∧ t.thread s.cur = some (th.next 4) ∧ (th.next 4).acc = th.acc ∧
        t.cores = s.cores ∧ t.clusters = s.clusters ∧ t.parts = s.parts)

/-- 11 R261, R263 to R265, R267, R270, R272, R276, R277, 06 R146, R148, R154, R156 to R158: when the unit has all its granules the
tile takes the result, the issuing thread the flags, and the unit is free. Every pair's result is the recurrence of R156 over its
blocks in ascending K, with the specials of R157 and the clamp of R158, each element of A and B read where R264 puts it and each scale
where R265 does; a ZLD copies, converts or extends each element, and a ZST writes each in its format. A LATCH whose granules have
performed sets TFULL, and a pass writes its neighbour's empty latch granule by granule, in any order, and sets its TFULL after the
last. -/
def Obligations.MatrixUnit : Prop :=
  ∀ (s : State) (c : Nat),
    let k := s.core c
    (∀ (j : MxJob) (n : Nat) (th : Thread), k.mx = some j → j.need ≤ j.got.length → j.slot = some n →
      s.thread (c * 4 + n) = some th →
      let z : ZTile := match j.op with | .mm _ z _ _ _ => z | .zld z _ => z
      let r := (match j.op with
        | .mm pair z u abase ps => mmTile pair u abase ps j.got j.vscale (s.tile c z)
        | .zld _ fmt => zldTile fmt (capturedBytes j.got 0 (128 * fmtWidth fmt)))
      Answers (.matrixUnitCompletion c) s fun t => (t.core c).mx = none ∧
        t.load (ztilePlace c z 0) (4 * r.1.length) = packBytes 32 r.1 ∧ t.thread (c * 4 + n) = some (th.raise r.2) ∧
        ∀ x : Nat, x < ztilePlace c z 0 ∨ ztilePlace c z (4 * r.1.length) ≤ x → t.mem.read x = s.mem.read x) ∧
    (∀ (pair : Nat) (u : Bool) (abase ps : Nat) (got : Map (List Byte)) (vs : List Byte) (z : List Nat), pair < 22 →
      z.length = 1024 → (∀ x ∈ z, x < 2 ^ 32) →
      let (kk, fa, fb) := pairShape pair u
      let blocks := if pair = 0 then 1 else kk / 32
      let n := if pair = 0 then 16 else 32
      let ca (i q : Nat) : Nat :=
        packedElement (fmtWidth fa) (kk * i + q) (capturedBytes got abase (4 * kk * fmtWidth fa))
      let cb (j q : Nat) : Nat :=
        packedElement (fmtWidth fb) (kk * j + q) (capturedBytes got (latchOffset true) (4 * kk * fmtWidth fb))
      let ia (i q : Nat) : Int :=
        if 15 ≤ pair then planesInt (pair - 13) (64 * i + q) fun p => capturedBytes got (abase + p * ps) 256
        else codeInt (fmtWidth fa) (u && pair != 14) (ca i q)
      let scaleOf (r i : Nat) : Nat := if 3 ≤ pair then scaleByte vs r i else 127
      let r := mmTile pair u abase ps got vs z
      ∃ el : Nat → Nat → Nat × Raised, r.1.length = 1024 ∧ r.2.toBits = flagsOf 1024 (fun m => (el (m / 32) (m % 32)).2) ∧
        ∀ i j : Nat, i < 32 → j < 32 → r.1[32 * i + j]? = some (el i j).1 ∧
          (pair ≤ 11 → AccumulatesFloat blocks n (fun q => fmtValue fa (ca i q)) (fun q => fmtValue fb (cb j q))
            (fun b => scaleOf (2 * b) i) (fun b => scaleOf (2 * b + 1) j) ((z[32 * i + j]?).getD 0) (el i j)) ∧
          (12 ≤ pair → AccumulatesInt blocks n (ia i) (fun q => codeInt (fmtWidth fb) false (cb j q))
            ((z[32 * i + j]?).getD 0) (el i j))) ∧
    (∀ (fmt : Nat) (bs : List Byte), fmt ∈ [0x00, 0x01, 0x02, 0x15, 0x08, 0x09, 0x0A] → bs.length = 128 * fmtWidth fmt →
      let r := zldTile fmt bs
      let x (n : Nat) : Nat := packedElement (fmtWidth fmt) n bs
      let y (n : Nat) : Nat := (r.1[n]?).getD 0
      let floats := decide (fmt = 0x01 ∨ fmt = 0x02)
      r.1.length = 1024 ∧
      (∃ nv : Bool, r.2 = { Raised.none with nv := nv } ∧
        (nv = true ↔ floats = true ∧ ∃ n : Nat, n < 1024 ∧ (fmtValue fmt (x n)).isSignalling = true)) ∧
      ∀ n : Nat, n < 1024 → y n < 2 ^ 32 ∧
        (fmt = 0x00 ∨ fmt = 0x15 → y n = x n) ∧
        (floats = true →
          ((fmtValue fmt (x n)).isNan = true → y n = 0x7FC00000) ∧
          (∀ neg : Bool, fmtValue fmt (x n) = .inf neg → fmtValue 0x00 (y n) = .inf neg) ∧
          (isFinite (fmtValue fmt (x n)) = true → isFinite (fmtValue 0x00 (y n)) = true ∧
            valueQ (fmtValue 0x00 (y n)) = valueQ (fmtValue fmt (x n)) ∧
            y n / 2 ^ 31 = x n / 2 ^ (fmtWidth fmt - 1))) ∧
        (fmt = 0x08 ∨ fmt = 0x09 ∨ fmt = 0x0A →
          (BitVec.ofNat 32 (y n)).toInt = codeInt (fmtWidth fmt) (decide (fmt = 0x0A)) (x n))) ∧
    (∀ (fmt : Nat) (z : List Nat), zstFormats.contains fmt = true → z.length = 1024 → (∀ x ∈ z, x < 2 ^ 32) →
      let w := fmtWidth fmt
      let out := zstBytes fmt z
      let x (n : Nat) : Nat := (z[n]?).getD 0
      let y (n : Nat) : Nat := packedElement w n out.1
      let iv (n : Nat) : Int := (BitVec.ofNat 32 (x n)).toInt
      let narrow := (floatFmt fmt).any fun f => !f.ieee
      out.1.length = 128 * w ∧ out.2.1.length = (if narrow then 32 else 0) ∧
      (fmt = 0x00 ∨ fmt = 0x15 → (∀ n : Nat, n < 1024 → y n = x n) ∧ out.2.2 = .none) ∧
      (fmt = 0x01 ∨ fmt = 0x02 → (∀ n : Nat, n < 1024 → y n = (convert fmt .rne (fmtValue 0x00 (x n))).1) ∧
        out.2.2.toBits = flagsOf 1024 fun n => (convert fmt .rne (fmtValue 0x00 (x n))).2) ∧
      (fmt ∈ [0x08, 0x09, 0x0A, 0x0B, 0x0C] →
        let unsigned := decide (fmt = 0x0A ∨ fmt = 0x0C)
        let lo : Int := if unsigned then 0 else -(2 ^ (w - 1))
        let hi : Int := if unsigned then 2 ^ w - 1 else 2 ^ (w - 1) - 1
        (∀ n : Nat, n < 1024 → codeInt w unsigned (y n) = max lo (min hi (iv n))) ∧
        ∃ acts : Bool, out.2.2 = { Raised.none with nx := acts, csat := acts } ∧
          (acts = true ↔ ∃ n : Nat, n < 1024 ∧ ¬ (lo ≤ iv n ∧ iv n ≤ hi))) ∧
      (∀ f : FloatFmt, floatFmt fmt = some f → narrow = true →
        ∃ flags : Nat → BitVec 7, out.2.2.toBits = (List.range 32).foldl (fun acc i => acc ||| flags i) 0 ∧
          ∀ i : Nat, i < 32 → BlockEncoded fmt f (fun k => fmtValue 0x00 (x (32 * i + k))) (fun _ => .rne)
            (((out.2.1[i]?).map (·.toNat)).getD 0) (fun k => y (32 * i + k)) (flags i))) ∧
    (∀ (right : Bool) (n : Nat) (th : Thread), k.latchJob = [(right, n)] → coreOfKey n = c → s.thread n = some th →
      th.latched right = true →
      Answers (.latchCompletion c right) s fun t => t.mem = s.mem ∧ (t.core c).latchJob = [] ∧
        (t.core c).tfull right = true ∧ (t.core c).tfull (!right) = k.tfull (!right) ∧
        t.thread n = some { th with acc := th.acc.filter fun x => !x.fillsLatch right }) ∧
    (∀ (south : Bool) (left : List Nat) (bs : List Byte), k.passOut.find? (·.1 == south) = some (south, left, bs) →
      left ≠ [] → bs.length = 2048 → (∀ n ∈ left, n < 32) →
      let d := passTarget c south
      let others := k.passOut.filter (·.1 != south)
      d ≠ c → (left.length = 32 → (s.core d).tfull south = false) →
      Answers (.pass c south) s fun t => ∃ n ∈ left,
        let at_ := windowPlace d (latchOffset south) + 64 * n
        let still := left.filter (· != n)
        t.load at_ 64 = (bs.drop (64 * n)).take 64 ∧
        (∀ x : Nat, x < at_ ∨ at_ + 64 ≤ x → t.mem.read x = s.mem.read x) ∧
        (still ≠ [] → (t.core c).passOut = others ++ [(south, still, bs)] ∧ t.core d = s.core d) ∧
        (still = [] → (t.core c).passOut = others ∧ (t.core d).tfull south = true))

/-! ## Tasks, futures, messages and engines -/

/-- 12 R285 to R288, R296 to R306: SPAWN allocates a future in the issuer's cluster, writes a descriptor and sets X[D], and one
that goes inline without room calls its entry; GLAUNCH puts an entry in the pending-launch pool; SEND and SENDC put one record
in the injection queue, with X[D] zero where no reply is asked for and a new future where one is; ENG puts a command there; YIELD
of a task thread parks it, its image in the park area, and queues it again, and is over for others; TEXIT returns from an inline child,
or ends the thread: a task's frame, descriptor and CLS are freed and its future resolves with X[1], a handler's REPLY likewise, a gang
thread counts towards its gang's retirement, which resolves the gang's future, and a supervisor with frames below it ends the thread
at the bottom of them, whose future it poisons (12 R298, 02 R51, 17 R375). The model's choices: an inline SPAWN and an inline TEXIT
end loops as CALL and RET do (log entry 21), and the resolve is posted to the future's owner (log entry 12). -/
def Obligations.TaskInstructions : Prop :=
  ∀ (g : Guard) (d a b : Reg) (s : State) (th : Thread),
    let c := coreOfKey s.cur
    let cl := clusterOfCore c
    let on : Thread := { th with wait := .none }
    let entry (w : Word) : Prop := w.toNat % 8 = 0 ∧ w.toNat < 2 ^ 56
    let args (n : Nat) : List Word := (th.x.toList.drop 1).take n
    (∀ (inl restart linked single : Bool) (t : State) (f : Word),
      let i : Instr := .spawn g inl restart linked single d a b
      let written (tk : Task) (st : TaskState) : Prop :=
        tk.entry = (th.getX a).toNat ∧ tk.args = args 6 ∧ tk.tiles = th.e.toList.take 4 ∧ tk.future = f ∧
        tk.count = wbits (th.getX b) 15 0 ∧ tk.prio = wbits (th.getX b) 17 16 ∧ tk.restart = restart ∧
        tk.linked = linked ∧ tk.dom = th.dom ∧ tk.part = th.part ∧ tk.state = st
      Issues i s th → entry (th.getX a) → s.served cl th.part s.cur 1 = true →
      (s.unstall cl s.cur).allocate cl th.part single linked .task = (f, t) →
      (wbits (th.getX b) 15 0 ≠ 0 → ∃ n : Nat, ∃ tk : Task, written tk .waiting ∧
        exec i s = .next ((t.setCluster cl { t.cluster cl with tasks := (t.cluster cl).tasks.put n tk }).setThread s.cur
          ((on.setX d f false).next 4))) ∧
      (wbits (th.getX b) 15 0 = 0 → wbits (th.getX b) 18 18 = 0 → Answers i s fun u => u.mem = t.mem ∧
        u.thread s.cur = some ((on.setX d f false).next 4) ∧
        ∃ n : Nat, ∃ tk : Task, (u.cluster cl).tasks.find n = some tk ∧ written tk .queued)) ∧
    (∀ (restart linked single : Bool), let i : Instr := .spawn g true restart linked single d a b
      let ent := th.getX a
      let back := (th.after 4).zeroExtend 64 ||| 1
      Issues i s th → entry ent → th.wait ≠ .alloc → s.served cl th.part s.cur 1 = false →
      s.headerWaits th.part (dieOfCore c) th.dom ent.toNat = false → s.inlineOk th ent (th.getX b) = true →
      rsValid th.rs[6] = false → rsValid th.rs[7] = false →
      exec i s = .next (s.setThread s.cur
        (((({ th with rs := rsPush (rsPush th.rs back) 1 }.setX d 0 false).setX 7 0 false).setX 8 0 false).transfer 4
          (ent.truncate 56) true))) ∧
    (∀ (t : State) (f : Word), Issues (.glaunch g d a b) s th → entry (th.getX a) →
      (wbits (th.getX b) 63 56 = 2 ∨ wbits (th.getX b) 63 56 = 3) → s.served cl th.part s.cur 2 = true →
      (s.unstall cl s.cur).allocate cl th.part false false .gang = (f, t) →
      ∃ e : PoolEntry,
        exec (.glaunch g d a b) s = .next ((t.setPart th.part { t.part th.part with pool := (t.part th.part).pool ++ [e] }).setThread
          s.cur ((on.setX d f false).next 4)) ∧
        e.entry = (th.getX a).toNat ∧ e.ctl = th.getX b ∧ e.args = args 6 ∧ e.dom = th.dom ∧ e.future = f) ∧
    (let m := th.getX a
     let n := wbits m 35 32
     ∀ (t : State) (f : Word),
      (wbits m 47 47 = 0 ∧ t = s ∧ f = 0) ∨ (wbits m 47 47 = 1 ∧ s.served cl th.part s.cur 0 = true ∧
        (s.unstall cl s.cur).allocate cl th.part false false .remote = (f, t)) →
      th.wait.allocated = none → s.deliverable th.part (wbits m 31 0) = true → c < 6144 → s.pkg.node < 2 ^ 17 → th.part < 32 →
      (t.part th.part).pgen < 16 →
      let sent (i : Instr) (r : Record) : Prop := let u := t.inject c th.part r
        exec i s = .next (u.setThread s.cur ((on.setX d f false).next 4)) ∧ u.mem = t.mem ∧
        (u.core c).inj = (t.core c).inj ++ [{ r with step := t.stepTag th.part }] ∧ r.reply = f ∧ r.dest = wbits m 31 0 ∧
        r.src = endpoint s.pkg.node c ∧ r.prio = wbits m 37 36 ∧ r.command = none ∧ r.request = none ∧
        ∀ q : Nat, q < n → r.arg (q + 1) = ((args 8)[q]?).getD 0
      (Issues (.send g d a b) s th → n ≤ 8 → entry (th.getX b) →
        (s.core c).injUsed + (if n ≤ 5 then 1 else 2) ≤ 16 →
        ∃ r : Record, sent (.send g d a b) r ∧ r.word 1 = th.getX b ∧ r.isCode = false ∧ r.size = (if n ≤ 5 then 1 else 2)) ∧
      (Issues (.sendc g d a) s th → n ≤ 4 →
        (liveCode (th.getE 4) (th.getE 5)).all (fun w => (codeInstr w).isSome) = true → (s.core c).injUsed + 1 ≤ 16 →
        ∃ r : Record, sent (.sendc g d a) r ∧ r.word 1 = th.getE 4 ∧ r.word 2 = th.getE 5 ∧ r.isCode = true ∧ r.size = 1)) ∧
    (let h := th.getX a
     ∀ (e : Engine) (t t' : State) (atoms : List Bool) (f : Word), Issues (.eng g d a) s th → engineOf (endLocal (wbits h 31 0)) = some e →
      endNode (wbits h 31 0) = s.pkg.node → engineWords e (wbits h 39 32) = some (wbits h 43 40) →
      s.engineIn th.part e (endLocal (wbits h 31 0)) = true → (e = .proof → th.supervisor = true) →
      (e = .copier → wbits h 39 32 = 2 → copyrAllowed th (endLocal (wbits h 31 0)) ((th.getE 1).toNat % 16) = true) →
      let ranges := engRanges e (wbits h 39 32) fun i => ((th.e.toList[i]?).getD 0).toNat
      rangeChecks c th s ranges = .ok (t, atoms) → attributeFault ranges atoms = none → th.wait.allocated = none →
      (t.core c).injUsed + 1 ≤ 16 → t.served cl th.part s.cur 0 = true →
      (t.unstall cl s.cur).allocate cl th.part false false .command = (f, t') →
      Answers (.eng g d a) s fun u => u.mem = t'.mem ∧ u.thread s.cur = some ((on.setX d f false).next 4) ∧
        ∃ (r : Record) (cmd : Command), (u.core c).inj = (t'.core c).inj ++ [r] ∧ r.command = some t'.nextCommand ∧
          u.commands.find t'.nextCommand = some cmd ∧ cmd.engine = endLocal (wbits h 31 0) ∧ cmd.op = wbits h 39 32 ∧
          cmd.words = th.e.toList.take (wbits h 43 40) ∧ cmd.future = f ∧ cmd.dom = th.dom ∧ cmd.part = th.part ∧
          cmd.atoms = atoms ∧ cmd.finished = none ∧ cmd.contours = (t'.core c).contours) ∧
    (Issues (.yield g) s th → (th.parks = false ∨ th.task = none ∨ th.wait = .woken) → th.wait = .woken ∨ th.wait = .none →
      Answers (.yield g) s fun t => ∃ u : Thread, t = s.setThread s.cur u ∧ u.pc = (th.next 4).pc ∧ u.x = th.x) ∧
    (∀ (tc n : Nat) (tk : Task) (k : State), Issues (.yield g) s th → th.parks = true → th.task = some (tc, n) →
      th.wait = .none → th.deferred = [] → th.acc = [] → (s.core c).mx = none → ParkAreaFits s tc → s.parkRoom tc th = some k →
      (k.cluster tc).tasks.find n = some tk →
      Answers (.yield g) s fun t => t.thread s.cur = none ∧ ImageParked t tc n th ∧
        (∃ u : Thread, (t.cluster tc).parked.find n = some u ∧ u.pc = th.pc ∧ u.x = th.x ∧ u.wait = .woken) ∧
        (t.cluster tc).runq.getLast? = some ⟨n, th.level, false, s.now, s.now⟩) ∧
    (Issues (.texit g) s th → th.slotWaits 0 th.spilld.toNat = false → th.rs[0] = 1 → rsValid th.rs[1] = true → th.rs[1] ≠ 1 →
      exec (.texit g) s = .next (s.setThread s.cur
        ({ th with rs := rsPop (rsPop th.rs) }.transfer 4 (BitVec.ofNat 56 (wbits th.rs[1] 55 1 * 2)) false))) ∧
    (Issues (.texit g) s th → th.slotWaits 0 th.spilld.toNat = false → s.belowSentinel th 41 = none → th.completeAt .s = true →
      (s.core c).mx = none → (s.core c).clsNow = (s.core c).clsSplit →
      let x1 := if th.supervisor || decide (2 ≤ th.hdr.xcount) then th.getX 1 else 0
      let posts (t : State) (f : Word) (op : FutOp) : Prop := f ≠ 0 → handleNode f = s.pkg.node →
        (t.cluster (handleCluster f)).posted = (s.cluster (handleCluster f)).posted ++ [op]
      let ends (kind : TKind) (own : Nat × Nat) (op : FutOp) (t : State) : Prop :=
        t.thread s.cur = none ∧ t.mem = s.mem ∧
        (kind = .task ∨ kind = .handler →
          (own.2 ≠ 0 → (c, own.1, own.2) ∉ (t.cluster cl).cls) ∧ posts t th.future op) ∧
        (∀ tc n : Nat, kind = .task → th.task = some (tc, n) → (t.cluster tc).tasks.find n = none ∧
          ∀ fc b : Nat, th.frameAt = some (fc, b) → ∀ x ∈ (t.cluster fc).frames, x.1 ≠ b) ∧
        (∀ (m : Nat) (gg : Gang), kind = .gang → th.gang = some m → s.gangs.find m = some gg →
          (2 ≤ gg.live → t.gangs.find m = some { gg with live := gg.live - 1 }) ∧
          (gg.live ≤ 1 → t.gangs.find m = none ∧ posts t gg.future (.resolve gg.future 0 0) ∧
            (∀ f ∈ gg.frames, ∀ x ∈ (t.cluster f.1).frames, x.1 ≠ f.2) ∧
            ∀ x ∈ gg.spans, ∀ y ∈ (t.cluster (clusterOfCore x.1)).cls, ¬ (y.1 = x.1 ∧ y.2.1 = x.2))) ∧
        (kind = .supervisor → t.clusters = s.clusters ∧ t.gangs = s.gangs)
      (th.frames = [] → Answers (.texit g) s (ends th.kind (th.ownOff, th.ownLen) (.resolve th.future x1 0))) ∧
      ∀ f : TFrame, th.frames.getLast? = some f → Answers (.texit g) s
        (ends f.kind (f.ownOff, f.ownLen) (.poison th.future (BitVec.ofNat 16 (0x0100 + f.cause.code)))))

/-- 12 R282, R283, R289 to R295; 19 R401: on a future of this node TOUCH waits while it is PENDING, a task thread in the park
area, and takes the VALUE of a RESOLVED or spilled one, consuming a single-touch one; a POISONED one takes FUTPOISON and a
CANCELLED one FUTCANCEL; TOUCH.Q takes the state with its code word; FTEST sets its predicate; RESOLVE, POISON and FCAN move a
PENDING future to their state and answer 0, and answer 1 where it is terminal; FREL frees it; FDEC is posted to its owner. A bad
or stale handle takes FUTBAD. On a future of another node a request leaves and the thread waits; an answer completes it. The model's
choices: an own-node operation is performed at issue and FDEC posted (log entry 12), the numbers of the operations in a packet (log
entry 18), FCAN of a command waits for its stores (log entry 68), and a TOUCH that traps acquires nothing (log entry 94). -/
def Obligations.FutureInstructions : Prop :=
  ∀ (g : Guard) (d a b : Reg) (s : State) (th : Thread),
    let f := th.getX a
    let c := coreOfKey s.cur
    let cl := handleCluster f
    let on : Thread := { th with wait := .none }
    let trap (c : Cause) (info2 : Word) (t : State) : Out :=
      .next (t.takeTrap s.cur th ⟨c, f, info2, th.pc.toNat, th.pc.toNat, false, false, false, none⟩)
    let touch (i : Instr) : Prop := (i = .touch g d a ∨ i = .cTouch d a) ∧ Issues i s th
    let taken (t : State) (u : Thread) (len : Nat) : Out := .next ((t.acquire c .s).setThread s.cur (u.next len))
    let both (v : Word) (st : FState) (status : BitVec 16) : Thread :=
      (on.setX d v false).setX (regNat (d.val + 1)) (BitVec.ofNat 64 (st.code * 2 ^ 16 + status.toNat)) false
    let tested (t : State) (pd : Reg8) (terminal : Bool) : Out :=
      .next ((if terminal = true then t.acquire c .s else t).setThread s.cur ((on.setP pd terminal).next 4))
    let told (v : Word) : Out := .next (s.setThread s.cur ((on.setX d v false).next 4))
    let pstat : BitVec 16 := if wbits (th.getX b) 15 0 = 0 then 1 else BitVec.ofNat 16 (wbits (th.getX b) 15 0)
    (th.wait = .none → s.badHandle th f = true →
      (∀ i ∈ ([.touch g d a, .cTouch d a, .touchQ g d a, .resolve g d a b, .poison g d a b, .fcan g d a, .frel g a,
        .fdec g a] : List Instr), Issues i s th → exec i s = trap .futbad 0 s) ∧
      ∀ pd : Reg8, Issues (.ftest g pd a) s th → exec (.ftest g pd a) s = trap .futbad 0 s) ∧
    (th.wait = .none → s.badHandle th f = false → handleNode f = s.pkg.node →
      (∀ e : Future, (s.cluster cl).futRef f = .live e →
        (e.state = .pending →
          let r := s.recordRoom cl (th.waiter s.cur)
          let t := r.setCluster cl ((r.cluster cl).putFuture f { e with waiters := e.waiters ++ [(th.waiter s.cur, false)] })
          (th.parks = false → ∀ i : Instr, touch i → exec i s = .next (t.setThread s.cur { th with wait := .touch f })) ∧
          (∀ (tc n : Nat) (tk : Task) (k : State), th.parks = true → th.task = some (tc, n) → th.deferred = [] → th.acc = [] →
            (t.core c).mx = none → ParkAreaFits t tc → t.parkRoom tc th = some k → (k.cluster tc).tasks.find n = some tk →
            ∀ i : Instr, touch i → Answers i s fun u => u.thread s.cur = none ∧ ImageParked u tc n th ∧
              (∃ v : Thread, (u.cluster tc).parked.find n = some v ∧ v.pc = th.pc ∧ v.x = th.x ∧ v.wait = .touch f) ∧
              ∃ tk' : Task, (u.cluster tc).tasks.find n = some tk' ∧ tk'.state = .parked)) ∧
        (let t := if e.single then s.setCluster cl ((s.cluster cl).freeFuture f s.now) else s
         (e.state = .resolved → ∀ i : Instr, touch i → exec i s = taken t (on.setX d e.value false) i.len) ∧
         (e.state ≠ .pending → Issues (.touchQ g d a) s th →
           exec (.touchQ g d a) s = taken t (both e.value e.state e.status) 4)) ∧
        (e.state = .poisoned → ∀ i : Instr, touch i → exec i s = trap .futpoison (e.status.zeroExtend 64) s) ∧
        (e.state = .cancelled → ∀ i : Instr, touch i → exec i s = trap .futcancel 0 s) ∧
        (∀ pd : Reg8, Issues (.ftest g pd a) s th → exec (.ftest g pd a) s = tested s pd (e.state != .pending)) ∧
        (e.state ≠ .pending →
          (Issues (.resolve g d a b) s th → exec (.resolve g d a b) s = told 1) ∧
          (Issues (.poison g d a b) s th → exec (.poison g d a b) s = told 1) ∧
          (Issues (.fcan g d a) s th → exec (.fcan g d a) s = told 1) ∧
          (Issues (.frel g a) s th → exec (.frel g a) s =
            .next ((s.setCluster cl ((s.cluster cl).freeFuture f s.now)).setThread s.cur (on.next 4)))) ∧
        (e.state = .pending → Issues (.frel g a) s th → exec (.frel g a) s = trap .futbad 0 s) ∧
        (e.state = .pending → e.single = false → e.waiters = [] →
          let becomes (st : FState) (v : Word) (status : BitVec 16) (t : State) : Prop :=
            t.mem = s.mem ∧ t.thread s.cur = some ((on.setX d 0 false).next 4) ∧
            ∃ e' : Future, (t.cluster cl).futRef f = .live e' ∧ e'.state = st ∧ e'.value = v ∧ e'.status = status
          (Issues (.resolve g d a b) s th → Answers (.resolve g d a b) s (becomes .resolved (th.getX b) 0)) ∧
          (Issues (.poison g d a b) s th → Answers (.poison g d a b) s (becomes .poisoned 0 pstat)) ∧
          (s.ofCommand f = false → Issues (.fcan g d a) s th → Answers (.fcan g d a) s (becomes .cancelled 0 0)) ∧
          (s.ofCommand f = true → Issues (.fcan g d a) s th → Answers (.fcan g d a) s fun t => t.mem = s.mem ∧
            t.thread s.cur = some { th with wait := .answer .cancelled 0 1 } ∧
            (∃ e' : Future, (t.cluster cl).futRef f = .live e' ∧ e'.state = .cancelled) ∧
            ∀ x ∈ t.commands, x.2.future = f → x.2.cancelled = true))) ∧
      (∀ r : Spill, (s.cluster cl).futRef f = .spilled r →
        (∀ (t : State) (v : Word) (status : BitVec 16), s.refetch cl r = some (t, v, status) →
          (∀ i : Instr, touch i → exec i s = taken
            (if r.single then t.setCluster cl ((t.cluster cl).freeFuture f t.now) else t) (on.setX d v false) i.len) ∧
          ∀ pd : Reg8, Issues (.ftest g pd a) s th → exec (.ftest g pd a) s = tested t pd true) ∧
        (s.refetch cl r = none → th.deferred = [] → th.settled = true → ∀ i : Instr, touch i →
          exec i s = trap .futbad 0 (s.count (handlePart f) ctrSpillref))) ∧
      ((s.cluster cl).futRef f = .stale → th.deferred = [] → th.settled = true →
        (∀ i ∈ ([.touch g d a, .cTouch d a, .touchQ g d a, .resolve g d a b, .poison g d a b, .fcan g d a, .frel g a] : List Instr),
          Issues i s th → exec i s = trap .futbad 0 s) ∧
        ∀ pd : Reg8, Issues (.ftest g pd a) s th → exec (.ftest g pd a) s = trap .futbad 0 s) ∧
      (Issues (.fdec g a) s th → exec (.fdec g a) s = .next ((s.post f (.dec f)).setThread s.cur (th.next 4)))) ∧
    (th.wait = .none → s.badHandle th f = false → handleNode f ≠ s.pkg.node →
      (Issues (.fdec g a) s th → exec (.fdec g a) s =
        .next ((s.futurePacket (7168 + clusterOfCore c) th.part 0 f 7 0 0).setThread s.cur (th.next 4))) ∧
      ∀ tag : Nat, s.freeTag c = some tag →
        let sent (n : Nat) (v : Word) (st : BitVec 16) : Out :=
          .next (({ s.futurePacket c th.part tag f n v st with
            outstanding := s.outstanding ++ [⟨c, tag, th.part, 9, some (.slot s.cur), f, false, false⟩] } : State).setThread s.cur
              { th with wait := .reply tag })
        (th.parks = false ∨ th.acc = [] ∧ th.deferred = [] →
          (∀ i : Instr, touch i → exec i s = sent 0 0 0) ∧
          (Issues (.touchQ g d a) s th → exec (.touchQ g d a) s = sent 1 0 0)) ∧
        (∀ pd : Reg8, Issues (.ftest g pd a) s th → exec (.ftest g pd a) s = sent 2 0 0) ∧
        (Issues (.resolve g d a b) s th → exec (.resolve g d a b) s = sent 3 (th.getX b) 0) ∧
        (Issues (.poison g d a b) s th → exec (.poison g d a b) s = sent 4 0 pstat) ∧
        (Issues (.fcan g d a) s th → exec (.fcan g d a) s = sent 5 0 0) ∧
        (Issues (.frel g a) s th → exec (.frel g a) s = sent 6 0 0)) ∧
    (∀ (st : FState) (v : Word) (status : BitVec 16), th.wait = .answer st v status →
      (st = .resolved → ∀ i : Instr, touch i → exec i s = taken s (on.setX d v false) i.len) ∧
      (Issues (.touchQ g d a) s th → exec (.touchQ g d a) s = taken s (both v st status) 4) ∧
      (∀ pd : Reg8, Issues (.ftest g pd a) s th → exec (.ftest g pd a) s = tested s pd (st != .pending)) ∧
      (Issues (.resolve g d a b) s th → exec (.resolve g d a b) s = told v) ∧
      (Issues (.poison g d a b) s th → exec (.poison g d a b) s = told v) ∧
      (Issues (.frel g a) s th → exec (.frel g a) s = .next (s.setThread s.cur (on.next 4))) ∧
      (¬(v = 0 ∧ status = 1) → Issues (.fcan g d a) s th → exec (.fcan g d a) s = told v) ∧
      (v = 0 → status = 1 → Issues (.fcan g d a) s th →
        (s.cancelWaits f = true → exec (.fcan g d a) s = .next (s.markBusy s.cur)) ∧
        (s.cancelWaits f = false → exec (.fcan g d a) s = taken s (on.setX d 0 false) 4))) ∧
    (th.wait = .stale →
      (∀ i : Instr, touch i → exec i s = trap .futbad 0 s) ∧
      (Issues (.touchQ g d a) s th → exec (.touchQ g d a) s = .next (s.setThread s.cur
        (((on.setX d 0 false).setX (regNat (d.val + 1)) 0xFFFF false).next 4))))

/-! ## Traps, sleep and barriers -/

/-- 17 R369, R381; 19 R403; 20 R437; 21 R446: the traps that the machine begins, of a thread whose accesses have settled: a held
trap is entered, ACKLOST with the line, PREEMPT with the cycles in the slot, MCHECK with the syndrome of the oldest event,
FUTEXHAUST with the cluster. -/
def Obligations.TrapsOfTheMachine : Prop :=
  ∀ (s : State) (t : Nat) (th : Thread), s.thread t = some th → th.deferred = [] →
    (s.core (coreOfKey t)).mx = none →
    let calm : Thread := { th with wait := .none }
    let pc := th.pc.toNat
    let k := s.part th.part
    (∀ r : TrapReq, th.settled = true → th.trap = some r →
      exec (.trapEntry t) s = .next (s.enterTrap t { th with trap := none } r)) ∧
    (∀ n : Nat, th.trap = none → th.stuck = some (pc, n) → n + 1048576 ≤ s.now →
      let lost (u : Thread) (line fpc : Nat) : Out := .next ((s.count th.part ctrAcklost).enterTrap t { u with stuck := none }
        ⟨.acklost, BitVec.ofNat 64 (line / 64 * 64), 0, fpc, pc, true, false, false, none⟩)
      (∀ (a : Nat) (x : Access), th.access a = some x →
        (x.lost = true ∨ (∃ old, x.state = .performed old) ∧ s.unreachable th.part (dieOfCore (coreOfKey t)) x.va = true) →
        (th.acc.filter (·.id != a)).all Access.isSettled = true →
        exec (.acklost t a) s = lost { calm with acc := th.acc.filter (·.id != a) } x.va x.fpc) ∧
      (∀ (a : Nat) (l : Nat × Nat), th.access a = none → th.wset.find? (·.1 == a) = some l → th.settled = true →
        s.unreachable th.part (dieOfCore (coreOfKey t)) a = true →
        exec (.acklost t a) s =
          lost { calm with wset := th.wset.filter (·.1 != a), nextId := th.nextId + 1 } a l.2)) ∧
    (th.trap = none → th.wait = .none → th.supervisor = false → (th.kind = .task ∨ th.kind = .handler) → k.quantum ≠ 0 →
      k.quantum * 65536 ≤ s.now - th.held → th.settled = true →
      exec (.preempt t) s = .next (s.enterTrap t calm
        ⟨.preempt, BitVec.ofNat 64 (s.now - th.held), 0, pc, pc, false, true, false, none⟩)) ∧
    (∀ (p : Nat) (m : Mcheck) (rest : List Mcheck), (s.part p).mchecks = m :: rest → s.supervisorSlot p = some t →
      th.frames = [] → th.trap = none → th.wait = .none → th.settled = true →
      exec (.mcheckDelivery p) s = .next ((s.setPart p { s.part p with mchecks := rest }).enterTrap t calm
        ⟨.mcheck, m.syndrome, 0, pc, pc, false, true, false, none⟩)) ∧
    (∀ cl : Nat, (clusterSlots cl).all s.quiet = true → s.windowStart cl + 16384 ≤ s.now →
      (s.cluster cl).lastStall = some t → th.settled = true →
      let u := s.unstall cl t
      exec (.exhaustionDetector cl) s =
        .next (((u.setCluster cl { u.cluster cl with stallSince := s.now }).count th.part ctrExhaust).enterTrap t calm
          ⟨.futexhaust, BitVec.ofNat 64 cl, 0, pc, pc, false, false, false, none⟩))

/-- 03 R83, 08 R215, 09 R236: SLEEP ends after 65,536 cycles; an idle core descends with its idle cycles as far as
SLEEP_CFG lets it, and wakes for a ready slot; a barrier's root counts an arrival, turns a wrong mask away with status 2,
and at the last one releases every participant at its staggered cycle, in which it completes with status 0, and beyond the first
of which time does not pass; a time-out withdraws in its cycle, beyond which time does not pass without it; and a withdrawn arrival
ends with status 1. That a phase whose last arrival has withdrawn is gone, so that the next arrival begins it afresh, is the
model's choice (log entry 69). -/
def Obligations.SleepAndBarriers : Prop :=
  ∀ (s : State) (t : Nat) (th : Thread), s.thread t = some th →
    let woken (w : Wait) (u : State) : Prop := u.mem = s.mem ∧ u.thread t = some { th with wait := w }
    (∀ since : Nat, th.wait = .sleep since → since + 65536 ≤ s.now → Answers (.sleepTimeout t) s (woken .woken)) ∧
    (∀ c : Nat, let k := s.core c
      let idle := s.now - k.restSince
      let cap := if k.sleepCfg = 1 then 2 else if k.sleepCfg = 2 then 3 else 1
      let by_ := if 4096 ≤ idle then 3 else if 256 ≤ idle then 2 else if 1 ≤ idle then 1 else 0
      (k.killed = false → (∀ j : Nat, j < 4 → s.slotActive (c * 4 + j) = false) →
        exec (.sleepDepthDescent c) s = .next (s.setCore c { k with depth := max k.depth (min cap by_) })) ∧
      (∀ j : Nat, j < 4 → t = c * 4 + j → th.wait = .none → k.depth ≠ 0 →
        exec (.coreWake c) s = .next (s.setCore c { k with depth := 0 }))) ∧
    (∀ (ch mask step tmo since n : Nat) (wd : Bool) (d : Reg) (taint : Bool) (g : Gang),
      th.wait = .barrier ch mask step tmo false since wd d taint →
      th.gang = some n → s.gangs.find n = some g →
      let key := n * 4 + ch
      let ph := (s.barriers.find key).getD ⟨mask, []⟩
      (ph.mask ≠ mask → Answers (.barrierArrival t) s (woken (.status 2))) ∧
      (ph.mask = mask → ph.arrivals.length + 1 < g.participants mask →
        exec (.barrierArrival t) s =
          .next ({ s with barriers := s.barriers.put key { ph with arrivals := ph.arrivals ++ [t] } }.setThread t
            { th with wait := .barrier ch mask step tmo true since wd d taint })) ∧
      (ph.mask = mask → g.participants mask ≤ ph.arrivals.length + 1 →
        Answers (.barrierArrival t) s fun u => u.barriers.find key = none ∧ u.mem = s.mem ∧
          ∀ q ∈ ph.arrivals ++ [t], ∀ (v : Thread) (ch' mask' step' tmo' since' : Nat) (ar wd' : Bool) (d' : Reg) (tt : Bool),
            s.thread q = some v → v.wait = .barrier ch' mask' step' tmo' ar since' wd' d' tt →
            u.thread q = some { v with
              wait := .released (s.now + (if g.die then 58 else 38) + step * (q / 4 % 256)) d' tt })) ∧
    (∀ (cycle : Nat) (d : Reg) (taint : Bool), th.wait = .released cycle d taint →
      (cycle ≤ s.now → Answers (.barrierCompletion t) s fun u => u.mem = s.mem ∧
        u.thread t = some (({ th with wait := .none }.setX d 0 taint).next 4)) ∧
      (s.now < cycle → exec (.barrierCompletion t) s = .next s ∧
        ∀ n : Nat, (s.pass n).now ≤ cycle ∧ (s.pass n).now ≤ s.now + n ∧ (n ≠ 0 → s.now < (s.pass n).now))) ∧
    (∀ (ch mask step tmo since : Nat) (arrived wd : Bool) (d : Reg) (taint : Bool),
      th.wait = .barrier ch mask step tmo arrived since wd d taint → tmo ≠ 0 → since + tmo ≤ s.now →
      exec (.barrierTimeout t) s =
        .next (s.setThread t { th with wait := .barrier ch mask step tmo arrived since true d taint })) ∧
    (∀ (ch mask step tmo since : Nat) (arrived : Bool) (d : Reg) (taint : Bool),
      th.wait = .barrier ch mask step tmo arrived since false d taint → tmo ≠ 0 → s.now < since + tmo →
      ∀ n : Nat, (s.pass n).now ≤ since + tmo ∧
        ∀ v : Thread, (s.pass n).now = since + tmo → (s.pass n).thread t = some v →
          ∀ arr : Bool, v.wait ≠ .barrier ch mask step tmo arr since false d taint) ∧
    (∀ (ch mask step tmo since n : Nat) (d : Reg) (taint : Bool) (ph : Phase),
      th.wait = .barrier ch mask step tmo true since true d taint →
      th.gang = some n → s.barriers.find (n * 4 + ch) = some ph →
      Answers (.barrierWithdrawal t) s fun u => woken (.status 1) u ∧
        (ph.arrivals.filter (· != t) ≠ [] →
          u.barriers.find (n * 4 + ch) = some { ph with arrivals := ph.arrivals.filter (· != t) }) ∧
        (ph.arrivals.filter (· != t) = [] → u.barriers.find (n * 4 + ch) = none))

/-! ## The cluster scheduler -/

/-- 02 R37 to R39, R49, R61; 03 R76 to R79, R81; 17 R379, R380; 19 R409, R412, R413: a dispatch starts the first entry that has a
slot, a task's first thread with its arguments, frame and future; a frame is given to the first QUEUED task, unless it has been
cancelled or its header fails; its tile lines are loaded and stored one by one, and then it is READY; waiting raises a level;
an idle cluster takes a QUEUED task of its victim; a migrating context parks in the arrival cluster and joins its run queue; and a
preempted thread parks and is queued again in the front band. That x7 of a task without a frame is 0 (log entry 64), that a migrated
descriptor moves and its frame stays (log entry 23) and the order of the tile copier's loads and stores (log entry 66) are the
model's choices. -/
def Obligations.Scheduling : Prop :=
  ∀ (s : State) (cl : Nat), let k := s.cluster cl
    (let u := s.parkHeld cl
     ∀ (e : RqEntry) (t : Nat) (tk : Task) (w : State) (th : Thread),
      (u.cluster cl).dispatchOrder.find? (fun e => (u.slotFor cl e).isSome) = some e → u.slotFor cl e = some t →
      (u.cluster cl).tasks.find e.task = some tk → u.entryThread cl e.task tk = some (w, th, none) →
      th.wait.sleeps = false →
      let c := coreOfKey t
      let len := ((w.cluster cl).needs e.task tk).2
      let off := (w.clsFit c len).getD 0
      let th' := if len = 0 then th else { th with spanOff := off, spanLen := len, ownOff := off, ownLen := len }
      Answers (.dispatch cl) s fun v =>
        v.thread t = some { th' with level := e.level, dispatched := w.now, held := w.now } ∧
        (v.cluster cl).tasks.find e.task = some { tk with
          state := .running, clsCore := if len = 0 then tk.clsCore else some (c, off), preempted := false } ∧
        (v.cluster cl).parked.find e.task = none ∧ (v.cluster cl).parkAt.find e.task = none ∧
        (v.cluster cl).runq = (w.cluster cl).runq.filter (·.task != e.task) ∧ (len = 0 → v.mem = w.mem)) ∧
    (∀ (n : Nat) (tk : Task) (h : Header), k.parked.find n = none → tk.hdr = some h →
      ∃ th : Thread, s.entryThread cl n tk = some (s, th, none) ∧ th.pc = BitVec.ofNat 56 tk.entry &&& 0xFFFFFFFFFFFFFE ∧
        (∀ i : Fin 6, th.x[i.val + 1] = if i.val + 1 < h.xcount then (tk.args[i.val]?).getD 0 else 0) ∧
        th.x[7] = (if 7 < h.xcount then
          (tk.frame.map fun u => BitVec.ofNat 64 (0x00FFFE0000000000 + cl * 0x00200000 + u * 2048)).getD 0 else 0) ∧
        th.x[8] = (if 8 < h.xcount then tk.future else 0) ∧ th.future = tk.future ∧
        th.p = 1 ∧ th.taint = 0 ∧ th.kind = .task ∧ th.supervisor = false ∧ th.hdr = h ∧ th.task = some (cl, n)) ∧
    (∀ (n : Nat) (tk : Task), k.queuedHead = some (n, tk) →
      (k.tasks.filter fun e => e.2.state == .fetching).length < 16 →
      (s.isCancelled tk.future = true → exec (.frameAllocation cl) s = .next (s.removeTask cl n)) ∧
      (s.isCancelled tk.future = false → tk.linked = true → tk.parent ≠ 0 → s.isCancelled tk.parent = true →
        exec (.frameAllocation cl) s = .next ((s.removeTask cl n).post tk.future (.cancel tk.future))) ∧
      (s.isCancelled tk.future = false → (tk.linked = true → tk.parent ≠ 0 → s.isCancelled tk.parent = false) →
        s.headerWaits tk.part (dieOfCluster cl) tk.dom tk.entry = false →
        let header := s.header tk.part (dieOfCluster cl) tk.dom tk.entry [0]
        let failed (st v : Nat) : Out := .next (((s.removeTask cl n).post tk.future
          (.poisonVal tk.future (BitVec.ofNat 64 v) (BitVec.ofNat 16 st))).count tk.part ctrHdrfail)
        (∀ (h : Header) (u : Nat), header = .ok h → s.frameFault cl tk h = none → h.tsframe ≠ 0 →
          k.frameFit h.tsframe = some u → exec (.frameAllocation cl) s = .next (s.setCluster cl { k with
            tasks := k.tasks.put n { tk with
              hdr := some h, frame := some u, state := .fetching, fetch := tileLines cl u tk.tiles, fill := [] }
            frames := k.frames ++ [(u, h.tsframe)] })) ∧
        (∀ h : Header, header = .ok h → s.frameFault cl tk h = none → h.tsframe = 0 →
          exec (.frameAllocation cl) s = .next (s.setCluster cl { k with
            tasks := k.tasks.put n { tk with hdr := some h, frame := none, state := .ready }
            runq := k.runq ++ [⟨n, tk.level, false, s.now, s.now⟩] })) ∧
        (∀ (h : Header) (st : Nat), header = .ok h → s.frameFault cl tk h = some st →
          exec (.frameAllocation cl) s = failed st tk.entry) ∧
        (∀ (st v : Nat), header = .error (st, v) → exec (.frameAllocation cl) s = failed st v))) ∧
    (∀ (n : Nat) (tk : Task), k.tasks.find n = some tk → tk.state = .fetching →
      let u : State := s.takeFree.2
      let with_ (v : State) (tk : Task) : State :=
        v.setCluster cl { v.cluster cl with tasks := (v.cluster cl).tasks.put n tk }
      (tk.fetch = [] → tk.fill = [] → exec (.tileFetchCompletion cl n) s = .next (s.setCluster cl { k with
        tasks := k.tasks.put n { tk with state := .ready }, runq := k.runq ++ [⟨n, tk.level, false, s.now, s.now⟩] })) ∧
      (∀ (va at_ : Nat) (rest : List (Nat × Nat)), tk.fetch = (va, at_) :: rest → tk.fill = [] → k.fetching = some n →
        u.hostWaits tk.part (dieOfCluster cl) va = false →
        let failed (v : State) : Out := .next (v.failTask cl n tk 0x0405 va ctrTilefail)
        let read := u.serviceLoad tk.part (dieOfCluster cl) va
        (∀ (v : State) (bs : List Byte), nameOf va = .translated → read = .ok (v, bs, false) →
          exec (.tileFetchCompletion cl n) s = .next (with_ v { tk with
            fetch := if va % 64 + bs.length < 64 then (va + bs.length, at_ + bs.length) :: rest else rest
            fill := [(at_, bs)] })) ∧
        (∀ (v : State) (bs : List Byte), nameOf va = .translated → read = .ok (v, bs, true) →
          exec (.tileFetchCompletion cl n) s = failed v) ∧
        (∀ r : Refused, nameOf va = .translated → read = .error r →
          exec (.tileFetchCompletion cl n) s = failed (u.s2refusal tk.part va r)) ∧
        (nameOf va ≠ .translated → exec (.tileFetchCompletion cl n) s = failed u)) ∧
      (tk.fetch = [] → tk.fill ≠ [] → ∃ (i at_ : Nat) (bs : List Byte), tk.fill[i]? = some (at_, bs) ∧
        exec (.tileFetchCompletion cl n) s = .next (with_ (u.storePlace at_ bs) { tk with fill := tk.fill.eraseIdx i }))) ∧
    (∀ n : Nat,
      (∀ e : RqEntry, k.runq.find? (·.task == n) = some e → e.since + 16384 ≤ s.now → e.level < 3 ∨ e.front = false →
        exec (.runQueueAgeing cl n) s = .next (s.setCluster cl { k with
          runq := k.runq.filter (·.task != n) ++ [⟨n, min 3 (e.level + 1), true, s.now, e.joined⟩] })) ∧
      (∀ tk : Task, k.runq.find? (·.task == n) = none → k.tasks.find n = some tk → tk.state = .queued →
        tk.since + 16384 ≤ s.now → tk.level < 3 → exec (.runQueueAgeing cl n) s = .next (s.setCluster cl { k with
          tasks := k.tasks.put n { tk with level := tk.level + 1, since := s.now } }))) ∧
    (∀ (v n : Nat) (tk : Task), s.idleCluster cl = true → k.lastSteal + 64 ≤ s.now → v ≠ cl → k.tasks.length < 1024 →
      (s.setCluster cl { k with lastSteal := s.now }).victim cl = some v → (s.cluster v).queuedHead = some (n, tk) →
      (s.setCluster cl { k with lastSteal := s.now }).noneOwed cl (s.clusterPart cl) = true →
      Answers (.workSteal cl) s fun u => (u.cluster v).tasks.find n = none ∧ u.mem = s.mem ∧
        ∃ j : Nat, (u.cluster cl).tasks = k.tasks.put j tk) ∧
    (∀ (n c old on : Nat) (m : Transit) (tk : Task) (w : State), s.transit[n]? = some m →
      s.diePlace m.thread.part m.die = some c → cl = clusterOfCore c → m.thread.task = some (old, on) → old ≠ cl →
      ParkAreaFits s cl → s.parkRoom cl m.thread = some w → k.tasks.length < 1024 → (s.cluster old).tasks.find on = some tk →
      s.noneOwed cl m.thread.part = true →
      Answers (.migrationArrival n) s fun u => u.transit = s.transit.eraseIdx n ∧ (u.cluster old).tasks.find on = none ∧
        ∃ j : Nat,
          let v : Thread := { m.thread with task := some (cl, j), spanOff := 0, spanLen := 0, ownOff := 0, ownLen := 0 }
          (u.cluster cl).tasks.find j = some { tk with state := .ready, frame := none, clsCore := none } ∧
          (u.cluster cl).parked.find j = some { v with wait := .none, ahead := [] } ∧ ImageParked u cl j v ∧
          (u.cluster cl).runq.getLast? = some ⟨j, m.thread.level, true, s.now, s.now⟩) ∧
    (∀ (t tc n : Nat) (th : Thread) (tk : Task) (w : State), let wait := (s.part (s.clusterPart cl)).twait * 1024
      wait ≠ 0 → k.lastPreempt + wait ≤ s.now → s.preemptVictim cl = some (t, th) → th.deferred = [] → th.acc = [] →
      th.wset = [] → th.task = some (tc, n) → th.wait ≠ .alloc → s.keepsForAnswer t th = false → (s.core (coreOfKey t)).mx = none →
      ParkAreaFits s tc → s.parkRoom tc th = some w → (w.cluster tc).tasks.find n = some tk →
      Answers (.taskPreemption cl) s fun u => u.thread t = none ∧ ImageParked u tc n th ∧
        (∃ v : Thread, (u.cluster tc).parked.find n = some v ∧ v.pc = th.pc ∧ v.x = th.x ∧ v.wait = th.wait) ∧
        (∃ tk' : Task, (u.cluster tc).tasks.find n = some tk' ∧ tk'.state = .ready ∧ tk'.preempted = true) ∧
        (u.cluster tc).runq.getLast? = some ⟨n, th.level, true, s.now, s.now⟩ ∧ (u.cluster cl).lastPreempt = s.now)

/-! ## Messages and futures as operations of the machine -/

/-- 02 R55 to R60, 12 R300, R305, 15 R337, 18 R396, 19 R413, R420: the oldest record of an injection queue reaches the receive
queue of its core, its engine's inbox or another node's packet, and waits for room; the receive unit takes the oldest record of
the highest PRIO, behind which the others wait; it checks an active message and hands it to the handler slot, whose thread
starts with the arguments, SRC and REPLY, and runs a code-carrying one word by word on its own registers. That it runs word by word,
with a store issued and performed apart (log entry 96), and that a message packet whose header R55 does not lay out is refused with
code 0x0A (log entry 115), are the model's choices. -/
def Obligations.Messages : Prop :=
  ∀ (s : State) (c : Nat), let k := s.core c
    let p := s.clusterPart (clusterOfCore c)
    (∀ (r : Record) (rest : List Record), k.inj = r :: rest →
      let loc := endLocal r.dest
      (r.command = none → r.request = none → endNode r.dest = s.pkg.node → loc < 6144 →
        s.pkg.present (clusterOfCore loc) = true → (s.core loc).killed = false → (s.core loc).sealedRx = false →
        (r.size ≤ (s.core loc).rxFree → Answers (.injectionQueueDrain c) s fun u =>
          (u.core c).inj = rest ∧ (u.core loc).rx = (s.core loc).rx ++ [r] ∧ u.mem = s.mem) ∧
        ((s.core loc).rxFree < r.size → exec (.injectionQueueDrain c) s = .next s)) ∧
      (r.command = none → r.request = none → endNode r.dest ≠ s.pkg.node → r.reply = 0 →
        Answers (.injectionQueueDrain c) s fun u =>
          (u.core c).inj = rest ∧ u.mem = s.mem ∧ ∃ q : Packet, u.outbox = s.outbox ++ [q] ∧ q.dest = r.dest ∧
            q.src = s.pkg.node * 2 ^ 15 + c ∧ q.ptype = (if r.isCode then 2 else 1) ∧ q.len = 64 * r.size ∧ q.prio = r.prio ∧
            q.step = r.step ∧ q.cls = (if r.class1 then 1 else 0) ∧ q.payload.length = 64 * r.size ∧
            ∀ i : Nat, i < 8 * r.size → payloadWord q i = r.word i) ∧
      (∀ q : Packet, r.command = none → r.request = some q → Answers (.injectionQueueDrain c) s fun u =>
        (u.core c).inj = rest ∧ u.mem = s.mem ∧ u.outbox = s.outbox ++ [{ q with step := r.step }]) ∧
      (∀ (n : Nat) (cmd : Command), r.command = some n → s.commands.find n = some cmd →
        let waiting := (s.commands.filter fun e => e.2.engine == cmd.engine && e.2.arrived && !e.2.started).length
        (cmd.cancelled = false → waiting < 32 → Answers (.injectionQueueDrain c) s fun u => (u.core c).inj = rest ∧
          u.mem = s.mem ∧ u.commands.find n = some { cmd with arrived := true, startedAt := s.now }) ∧
        (cmd.cancelled = false → 32 ≤ waiting → exec (.injectionQueueDrain c) s = .next s) ∧
        (cmd.cancelled = true → cmd.fcan = none → Answers (.injectionQueueDrain c) s fun u => (u.core c).inj = rest ∧
          u.mem = s.mem ∧ u.commands.find n = none))) ∧
    (∀ r : Record, k.killed = false → k.handlerHead = none → k.code = none → pickRecord k.rx = some r →
      let t := s.dropRecord c r
      let ent := (r.word 1).toNat
      let failed (status v : Nat) : State :=
        if r.reply = 0 then t.count p ctrHdrfail
        else (t.count p ctrHdrfail).post r.reply (.poisonVal r.reply (BitVec.ofNat 64 v) (BitVec.ofNat 16 status))
      (s.takeable c r = false → exec (.messageReceipt c) s = .next s) ∧
      (r.isCode = false → s.handlerOf c r = none →
        exec (.messageReceipt c) s = .next (t.answerRecord p r 0x0C)) ∧
      (∀ h : Nat, r.isCode = false → s.handlerOf c r = some h → h ≠ c → s.takeable c r = true →
        Answers (.messageReceipt c) s fun u => u.mem = s.mem ∧ (u.core c).rx = k.rx.erase r ∧
          (u.core h).rx = (s.core h).rx ++ [{ r with coreScope := false }]) ∧
      (r.isCode = false → s.handlerOf c r = some c → s.handlerFree c = true →
        s.headerWaits p (dieOfCore c) (s.part p).hdom ent = false →
        (∀ h : Header, s.header p (dieOfCore c) (s.part p).hdom ent [3] = .ok h →
          exec (.messageReceipt c) s = .next (if k.clsNow * 256 < h.clsscr then failed 0x0407 ent
            else s.setCore c { k with handlerHead := some (r, h) })) ∧
        (∀ status v : Nat, s.header p (dieOfCore c) (s.part p).hdom ent [3] = .error (status, v) →
          exec (.messageReceipt c) s = .next (failed status v))) ∧
      (r.isCode = true → Answers (.messageReceipt c) s fun u => u.mem = s.mem ∧ (u.core c).rx = k.rx.erase r ∧
        (u.core c).code = some ⟨r, codeThread p r, liveCode (r.word 1) (r.word 2), []⟩) ∧
      (let x := (codeThread p r).getX
       x 1 = r.arg 1 ∧ x 2 = r.arg 2 ∧ x 3 = r.arg 3 ∧ x 4 = r.arg 4 ∧ x 5 = BitVec.ofNat 64 r.src ∧ x 6 = r.reply ∧
       x 7 = 0)) ∧
    (∀ run : CodeRun, k.killed = false → k.handlerHead = none → k.code = some run →
      let u : State := s.takeFree.2
      let goes (v : State) (run : Option CodeRun) : Prop :=
        exec (.messageReceipt c) s = .next (v.setCore c { v.core c with code := run })
      (run.words = [] → run.sq = [] → goes u none) ∧
      (∀ (pa : Nat) (bs : List Byte), run.words = [] → run.sq = [(pa, bs)] →
        goes (u.storePlace pa bs) (some { run with sq := [] })) ∧
      (∀ (w : Nat) (ws : List Nat) (i : Instr), run.words = w :: ws → run.sq = [] → codeInstr w = some i →
        let step := codeStep u c p [] run.regs i
        (∀ (v : State) (th : Thread), step = .ok v th → goes v (some { run with regs := th, words := ws })) ∧
        (∀ (v : State) (pa : Nat) (bs : List Byte), step = .store v pa bs →
          goes v (some { run with words := ws, sq := [(pa, bs)] })) ∧
        (∀ v : State, step = .wait v → exec (.messageReceipt c) s = .next v) ∧
        (∀ (v : State) (e : Nat), step = .fault v e → run.record.reply ≠ 0 →
          goes ((v.count p ctrMsgfault).post run.record.reply
            (.poison run.record.reply (BitVec.ofNat 16 (0x0300 + e)))) none))) ∧
    (∀ (r : Record) (h : Header) (off : Nat), k.handlerHead = some (r, h) → s.slotEmpty (c * 4 + 3) = true →
      s.gangKeeps (c * 4 + 3) = false → s.clsFit c h.clsscr = some off →
      Answers (.handlerStart c) s fun u => (u.core c).handlerHead = none ∧ (u.core c).rx = k.rx.erase r ∧
        ∃ th : Thread, u.thread (c * 4 + 3) = some th ∧
        th.pc = (r.word 1).truncate 56 &&& 0xFFFFFFFFFFFFFE ∧ th.kind = .handler ∧ th.supervisor = false ∧ th.hdr = h ∧ th.part = p ∧
        th.dom = (s.part p).hdom ∧ (∀ i : Fin 8, th.x[i.val + 1] = r.arg (i.val + 1)) ∧ th.x[9] = BitVec.ofNat 64 r.src ∧
        th.x[10] = r.reply ∧ th.future = r.reply ∧ th.spanOff = off ∧ th.spanLen = h.clsscr ∧ th.p = 1 ∧ th.wait = .none) ∧
    (∀ (q : Packet) (j : Nat), Admitted s q j → let loc := endLocal q.dest
      loc < 6144 → s.ownsCluster j (clusterOfCore loc) = true → s.pkg.present (clusterOfCore loc) = true →
      (s.core loc).killed = false → (s.core loc).sealedRx = false →
      let h := (packetRecord q).word 0
      let legal := wbits h 4 0 = 0 ∧ wbits h 31 28 = q.ptype - 1 ∧ wbits h 27 24 ≤ (if q.ptype = 2 then 4 else 8)
      let ran (i : Instr) : Prop :=
        (¬legal → exec i s = .next ((takenFrom s q j).refusePacket j q 0x0A)) ∧
        (legal → (packetRecord q).size ≤ (s.core loc).rxFree → Answers i s fun u =>
          (u.core loc).rx = (s.core loc).rx ++ [packetRecord q] ∧ u.mem = s.mem ∧ u.pkg.ports = (s.leaveGate q).pkg.ports) ∧
        (legal → (s.core loc).rxFree < (packetRecord q).size → exec i s = .next s)
      (q.ptype = 1 → ran (.activeMessage q)) ∧ (q.ptype = 2 → ran (.codeCarryingMessage q)))

/-- 02 R42 to R48, 12 R282, R290, R292, 15 R330, 19 R401, R408, R409: a full table writes its oldest RESOLVED entry to the spill
area; a posted operation acts at its owner; a terminal state answers the touch that waits and consumes a single-touch entry,
with one message to each other cluster; another node's operation is answered with the state, and a touch of a PENDING one is
recorded; an answer or wake reaches its waiter; a cancel notice removes the task that has not run and cancels its linked
children. The bytes and the place of a spill record (log entry 13), posted operations as steps of their own (log entry 12) and the
numbers of operations and answers in packets (log entry 18) are the model's choices. -/
def Obligations.FutureOperations : Prop :=
  ∀ (s : State) (cl : Nat), let k := s.cluster cl
    (∀ (n : Nat) (e : Future), k.oldestResolved = some (n, e) → k.spillRefused = false →
      k.spills.length < k.fspillSize * 128 → 3072 < k.futures.length → k.spilling = true ∨ 3584 < k.futures.length →
      let u := s.setCluster cl { k with spilling := true }
      let p := s.clusterPart cl
      let va := k.fspillBase + 32 * k.spillIndex
      s.hostWaits p (dieOfCluster cl) va = false →
      (∀ w : State, u.serviceStore p (dieOfCluster cl) va (spillBytes (mkHandle s.pkg.node cl n e.gen e.part) e) = .ok w →
        Answers (.futureSpill cl) s fun t => t.mem = w.mem ∧ (t.cluster cl).futures = (w.cluster cl).futures.erase n ∧
          (t.cluster cl).spills = (w.cluster cl).spills ++ [⟨n, e.gen, e.part, k.spillIndex, e.single, e.linked⟩]) ∧
      (∀ r : Refused, u.serviceStore p (dieOfCluster cl) va (spillBytes (mkHandle s.pkg.node cl n e.gen e.part) e) = .error r →
        exec (.futureSpill cl) s = .next
          ((u.setCluster cl { k with spilling := true, spillRefused := true }).count p ctrSpillref))) ∧
    (k.futures.length ≤ 3072 → exec (.futureSpill cl) s = .next (s.setCluster cl { k with spilling := false })) ∧
    (∀ (op : FutOp) (rest : List FutOp), k.posted = op :: rest →
      let u := s.setCluster cl { k with posted := rest }
      (handleNode op.handle = s.pkg.node → s.opWaits op = false → exec (.futureOperation cl none) s = .next (u.perform op)) ∧
      (handleNode op.handle ≠ s.pkg.node → exec (.futureOperation cl none) s =
        .next (u.futurePacket (7168 + cl) (handlePart op.handle) 0 op.handle op.packetOp.1 op.packetOp.2.1 op.packetOp.2.2))) ∧
    (∀ (f v : Word) (e : Future), handleCluster f = cl → k.futRef f = .live e → e.state = .pending →
      (∀ (t : Nat) (th : Thread) (isQ : Bool), e.waiters = [(.slot t, isQ)] → clusterOfCore (coreOfKey t) = cl →
        s.thread t = some th →
        let done (u : State) (st : FState) (value : Word) (status : BitVec 16) (kept : Bool) : Prop := u.mem = s.mem ∧
          u.thread t = some { th with wait := .answer st value status } ∧
          (if kept = true then ∃ e' : Future, (u.cluster cl).futRef f = .live e' ∧ e'.state = st ∧ e'.value = value ∧
              e'.status = status ∧ e'.waiters = []
            else (u.cluster cl).futures.find (handleSlot f) = none)
        done (s.perform (.resolve f v 0)) .resolved v 0 (!e.single) ∧
        done (s.perform (.poison f 1)) .poisoned 0 1 (!e.single || !isQ)) ∧
      (∀ (t1 t2 : Nat) (q1 q2 : Bool), e.single = false → e.waiters = [(.slot t1, q1), (.slot t2, q2)] →
        clusterOfCore (coreOfKey t1) ≠ cl → clusterOfCore (coreOfKey t2) = clusterOfCore (coreOfKey t1) →
        (s.perform (.resolve f v 0)).wakes = s.wakes ++
          [⟨clusterOfCore (coreOfKey t1), [(.slot t1, false), (.slot t2, false)], f, .resolved, v, 0⟩])) ∧
    (∀ (q : Packet) (p : Nat), Admitted s q p → q.ptype = 9 → cl = handleCluster (BitVec.ofNat 64 q.arg) →
      s.fdecWaits (BitVec.ofNat 64 q.arg) = false →
      let loc := endLocal q.dest
      (7168 ≤ loc → s.ownsCluster p (loc - 7168) = true →
        exec (.futureOperation cl (some q)) s = .next ((takenFrom s q p).remoteFuture q)) ∧
      (loc < 7168 ∨ s.ownsCluster p (loc - 7168) = false →
        exec (.futureOperation cl (some q)) s = .next ((takenFrom s q p).refusePacket p q 0x0A))) ∧
    (∀ (q : Packet) (e : Future), let f := BitVec.ofNat 64 q.arg
      let word := leNat ((q.payload.drop 8).take 8)
      let own := handleCluster f
      (s.part (handlePart f)).live = true → (s.part (handlePart f)).job = q.job →
      (s.cluster own).futRef f = .live e →
      (e.state ≠ .pending → e.single = false → bitsOf word 63 16 ≤ 1 →
        s.remoteFuture q = s.answerNode f q.src q.tag e.state.code e.value e.status) ∧
      (e.state = .pending → bitsOf word 63 16 ≤ 1 →
        let r := s.recordRoom own (.node q.src q.tag)
        s.remoteFuture q = (r.setCluster own ((r.cluster own).putFuture f
          { e with waiters := e.waiters ++ [(.node q.src q.tag, decide (bitsOf word 63 16 = 1))] })).answerNode f q.src q.tag
            1 0 0) ∧
      (e.state = .pending → bitsOf word 63 16 = 3 →
        s.remoteFuture q = (s.settleFuture f e .resolved (payloadWord q 0) (BitVec.ofNat 16 word)).answerNode f q.src q.tag
          2 0 0)) ∧
    (∀ (n t : Nat) (m : WakeMsg) (gone : Bool) (th : Thread), s.wakes[n]? = some m → m.waiters = [(.slot t, gone)] →
      s.thread t = some th →
      Answers (.futureAnswerOrWake n none) s fun u => u.wakes = s.wakes.eraseIdx n ∧ u.mem = s.mem ∧ u.thread t = some
        { th with wait := if gone = true then .stale else .answer m.state m.value m.status }) ∧
    (∀ (n t p code : Nat) (q : Packet) (o : Outstanding) (th : Thread), Admitted s q p → q.ptype = 10 →
      s.outstanding.find? (fun o => o.tag == q.tag && o.ptype == 9 && o.core == endLocal q.dest) = some o →
      o.waiter = some (.slot t) → s.thread t = some th → answerOf q = code → (code = 2 ∨ code = 3 ∨ code = 4) →
      Answers (.futureAnswerOrWake n (some q)) s fun u => u.mem = s.mem ∧ u.outstanding = s.outstanding.filter (· != o) ∧
        u.thread t = some { th with
          wait := .answer (fstateOf code) (payloadWord q 0) (BitVec.ofNat 16 (payloadWord q 1).toNat) }) ∧
    (∀ (f : Word) (rest : List Word), k.cancels = f :: rest →
      Answers (.cancelNotice cl) s fun u => (u.cluster cl).cancels = rest ∧ u.mem = s.mem ∧
        (∀ (n : Nat) (tk : Task), k.tasks.find? (fun e => e.2.future == f && e.2.removable) = some (n, tk) →
          (u.cluster cl).tasks.find n = none) ∧
        ∀ x ∈ k.tasks, x.2.linked = true → x.2.parent = f →
          FutOp.cancel x.2.future ∈ (u.cluster (handleCluster x.2.future)).posted)

/-! ## The master distributor -/

/-- 02 R51, R52; 03 R66 to R75; 11 R262; 17 R382 to R385; 19 R414, R417, R418: reports when they are due, record reads, the mapping
of the first waiting queue, acceptance of the first source that can go (a NOP completes, a root task becomes a descriptor, a gang
is reserved, a bad record fails with its STATUS), completions, the ageing of sources, the start of a gang whose slots are empty,
the supervisor thread's move and the save of a settled victim. The order in which queues are mapped and sources of one priority served
(log entry 72), the order of a record's faults (log entry 71) and what a gang's save holds where (log entry 13) are the model's
choices. -/
def Obligations.Distributor : Prop :=
  ∀ (s : State),
    (∀ cl : Nat,
      (s.reportDue cl = true → exec (.freeResourceReport cl) s = .next { s with dist := { s.dist with
        views := s.dist.views.put cl (s.report cl), reported := s.dist.reported.put cl (s.report cl)
        refusedAt := s.dist.refusedAt.filter (·.2.2 != cl) } }) ∧
      (s.reportDue cl = false → exec (.freeResourceReport cl) s = .next s) ∧
      (∀ r : Report, s.dist.reported.find cl = some r → r.time + 128 ≤ s.now → s.reportDue cl = true)) ∧
    (∀ (p q : Nat), let l := (s.part p).queue q
      let va := l.base + l.head % 2 ^ l.size * 128 + l.begun.length
      l.mapped = true → l.enable = true → l.head ≠ l.tail → l.record = none → l.refusedRead = false →
      s.recordWaits p va = false →
      let failed (u : State) : Out :=
        .next ((u.setQueue p q { (u.part p).queue q with refusedRead := true, begun := [] }).count p ctrCmplref)
      (∀ (t : State) (bs : List Byte), s.serviceLoad p controlDie va = .ok (t, bs, false) →
        exec (.launchRecordRead p q) s = .next (t.setQueue p q (if (l.begun ++ bs).length < 128 then
            { (t.part p).queue q with begun := l.begun ++ bs }
          else { (t.part p).queue q with record := some (wordsOf (l.begun ++ bs) 16), begun := [] }))) ∧
      (∀ (t : State) (bs : List Byte), s.serviceLoad p controlDie va = .ok (t, bs, true) →
        exec (.launchRecordRead p q) s = failed t) ∧
      (∀ r : Refused, s.serviceLoad p controlDie va = .error r →
        exec (.launchRecordRead p q) s = failed (s.s2refusal p va r))) ∧
    (∀ (p q : Nat) (l : LaunchQueue), ((p, q), l) ∈ s.pendingQueues → s.dist.slots.length < 256 →
      (∀ x ∈ s.pendingQueues, x ≠ ((p, q), l) → pendingBefore ((p, q), l) x = true) →
      Answers .queueMapping s fun u => u.dist.slots = s.dist.slots ++ [(p, q)] ∧ u.mem = s.mem ∧
        let a := (u.part p).queue q
        let b := (s.part p).queue q
        a.mapped = true ∧ a.pending = false ∧ a.head = b.head ∧ a.tail = b.tail ∧ a.headSince = b.headSince) ∧
    (∀ (x : Source) (rest : List Source) (t : State), s.competing = x :: rest → s.trySource x = some t →
      exec .recordAcceptance s = .next t) ∧
    (∀ (p q : Nat) (ws : List Word), s.queueHead p q = some ws →
      let lq := (s.part p).queue q
      let l := recordLaunch p lq ws
      let word (i : Nat) : Word := (ws[i]?).getD 0
      (∀ st : Nat, s.recordFault l ws = some st → s.trySource (.queue p q) =
        some (((s.passHead p q).count p ctrHdrfail).complete p (word 12).toNat (wbits (word 13) 47 0) 0
          (BitVec.ofNat 16 st))) ∧
      (s.recordFault l ws = none → wbits (word 0) 63 56 = 0 → s.orderedHeld p q ws = false →
        s.trySource (.queue p q) = some ((s.passHead p q).complete p (word 12).toNat (wbits (word 13) 47 0) 0 0)) ∧
      (∀ cl : Nat, s.recordFault l ws = none → wbits (word 0) 63 56 = 1 → s.rootCluster l = some cl → cl < 2 ^ 9 →
        s.orderedHeld p q ws = false → s.satisfied cl p 1 = true → s.noneOwed cl p = true → p < 2 ^ 5 →
        ∃ (t : State) (n : Nat) (tk : Task) (a : Accepted), s.trySource (.queue p q) = some t ∧
          (t.cluster cl).tasks.find n = some tk ∧ tk.state = .queued ∧ tk.entry = (word 1).toNat ∧
          tk.args = (ws.drop 2).take 6 ∧ tk.tiles = (ws.drop 8).take 4 ∧ tk.dom = lq.dom ∧ tk.part = p ∧
          t.dist.accepted.find s.dist.nextRecord = some a ∧ a.future = tk.future ∧ a.caddr = (word 12).toNat ∧
          a.ctag = wbits (word 13) 47 0 ∧ ((t.part p).queue q).head = (lq.head + 1) % 65536) ∧
      (∀ st v : Nat, s.recordFault l ws = none → (wbits (word 0) 63 56 = 2 ∨ wbits (word 0) 63 56 = 3) →
        s.findGang l = .fails st v → s.trySource (.queue p q) =
        some (((s.passHead p q).count p ctrHdrfail).complete p (word 12).toNat (wbits (word 13) 47 0) 0
          (BitVec.ofNat 16 st))) ∧
      (∀ (h : Header) (pl : Plan) (f : Word) (t u : State), s.recordFault l ws = none →
        (wbits (word 0) 63 56 = 2 ∨ wbits (word 0) 63 56 = 3) → s.findGang l = .plan h pl → s.orderedHeld p q ws = false →
        s.satisfied ((pl.clusters.head?).getD 0) p 0 = true → s.noneOwed ((pl.clusters.head?).getD 0) p = true →
        s.allocate ((pl.clusters.head?).getD 0) p false false .gang = (f, t) → t.placeGang l h pl f = .ok u →
        s.trySource (.queue p q) = some (u.acceptRecord p q ws f))) ∧
    (∀ (p : Nat) (e : PoolEntry), (s.part p).poolHead = some e → let l := poolLaunch p e
      (∀ st v : Nat, s.findGang l = .fails st v → s.trySource (.pool p) = some (((s.leavePool p e).post e.future
        (.poisonVal e.future (BitVec.ofNat 64 v) (BitVec.ofNat 16 st))).count p ctrHdrfail)) ∧
      (∀ (h : Header) (pl : Plan) (t : State), s.findGang l = .plan h pl → s.placeGang l h pl e.future = .ok t →
        s.trySource (.pool p) = some (t.leavePool p e) ∧
        ∃ g : Gang, t.gangs.find s.nextGang = some g ∧ g.slots = pl.slots ∧ g.clusters = pl.clusters ∧ g.entry = e.entry ∧
          g.args = e.args ∧ g.hdr = h ∧ g.dom = e.dom ∧ g.part = p ∧ g.future = e.future ∧ g.started = false)) ∧
    (∀ (n : Notice) (rest : List Notice) (a : Accepted), (∀ x ∈ s.dist.writes, s.completionWaits x = true) →
      s.dist.notices = n :: rest → s.dist.accepted.find n.record = some a →
      exec .completionNotice s = .next { s with dist := { s.dist with
        notices := rest, accepted := s.dist.accepted.erase n.record
        writes := s.dist.writes ++ if a.caddr = 0 then [] else [⟨a.part, a.caddr, a.ctag, n.value, n.status, false⟩] } }) ∧
    (∀ (x : Completion) (rest : List Completion), s.dist.writes = x :: rest → s.completionWaits x = false →
      let va := if x.second = true then x.caddr / 16 * 16 + 8 else x.caddr / 16 * 16
      let word := if x.second = true then BitVec.ofNat 64 (x.status.toNat * 2 ^ 48 + x.ctag) else x.value
      (∀ t : State, s.storeControl x.part va (leBytes 8 word.toNat) = .ok t → exec .completionNotice s = .next
        { t with dist := t.dist.rewrite x (if x.second = true then none else some { x with second := true }) }) ∧
      (∀ r : Refused, s.storeControl x.part va (leBytes 8 word.toNat) = .error r →
        let t := (s.s2refusal x.part va r).count x.part ctrCmplref
        exec .completionNotice s = .next { t with dist := t.dist.rewrite x none })) ∧
    (∀ (src base since : Nat), let x := sourceOf src
      s.sourceHead x = some (base, since) → base + s.boost x < 3 → since + (s.boost x + 1) * 65536 ≤ s.now →
      exec (.sourcePriorityAgeing src) s = .next
        { s with dist := { s.dist with boosts := s.dist.boosts.put src (s.boost x + 1, s.headId x) } }) ∧
    (∀ (n : Nat) (g : Gang), s.gangs.find n = some g → g.started = false → g.preempted = false →
      (∀ t ∈ g.reserved, s.slotEmpty t = true) →
      Answers (.gangStart n) s fun u =>
        u.gangs.find n = some { g with
          started := true, startedAt := s.now, saved := [], savedPlaces := [], savedCores := [], savedBad := [], saveAt := [] } ∧
        (g.saved = [] → g.savedPlaces = [] → g.savedCores = [] → g.slots.Nodup → u.mem = s.mem ∧
          (g.hdr.torus = true → ∀ t ∈ g.slots,
            (u.core (coreOfKey t)).tfullA = false ∧ (u.core (coreOfKey t)).tfullB = false) ∧
          ∀ i t : Nat, g.slots[i]? = some t →
          ∃ th : Thread, u.thread t = some th ∧ th.pc = BitVec.ofNat 56 g.entry &&& 0xFFFFFFFFFFFFFE ∧ th.kind = .gang ∧ th.gang = some n ∧
            th.gangIndex = i ∧ th.hdr = g.hdr ∧ th.dom = g.dom ∧
            (∀ j : Fin 6, th.x[j.val + 1] = if j.val + 1 < g.hdr.xcount then (g.args[j.val]?).getD 0 else 0) ∧
            th.x[7] = (if 7 < g.hdr.xcount then BitVec.ofNat 64 i else 0) ∧
            th.x[8] = (if 8 < g.hdr.xcount then BitVec.ofNat 64 g.hdr.gthreads else 0) ∧ th.p = 1 ∧ th.wait = .none) ∧
        ((g.saved.map (·.1)).Nodup → ∀ x ∈ g.saved, x.2.wait.sleeps = false →
          u.thread x.1 = some { x.2 with dispatched := s.now, held := s.now })) ∧
    (∀ (p t dest : Nat) (th : Thread), s.supervisorSlot p = some t → s.thread t = some th → (s.part p).moveTo = some dest → s.moveOpen dest = true →
      th.trap = none → th.wait = .none → th.deferred = [] → th.acc = [] → th.wset = [] →
      (s.core (coreOfKey t)).mx = none → dest ≠ t →
      Answers (.supervisorMove p) s fun u => u.thread t = none ∧ (u.part p).moveTo = none ∧
        u.thread dest = some { th with ahead := [], stuck := none, held := s.now } ∧
        ((s.core (coreOfKey t)).clsNow = (s.core (coreOfKey t)).clsSplit → u.mem = s.mem)) ∧
    (∀ (src p n : Nat) (l : Launch) (g : Gang), (sourceOf src).part = some p → s.stoppingGang p = none →
      s.waitingGang (sourceOf src) = some l → (s.part l.part).gpe = true → s.placeable l = false →
      s.gangVictim l = some (n, g) → Answers (.gangPreemption src) s fun u =>
        u.gangs.find n = some { g with stopping := true, saveAt := s.saveRoom g }) ∧
    (∀ (src p n : Nat) (g : Gang), (sourceOf src).part = some p → s.stoppingGang p = some (n, g) →
      (g.saved = [] → s.unsettledThread g = none → s.handled g = false →
        Answers (.gangPreemption src) s fun u => (∀ t ∈ g.slots, u.thread t = none) ∧
          ∃ g' : Gang, u.gangs.find n = some g' ∧ g'.stopping = true ∧ g'.slots = g.slots ∧
            ∀ t ∈ g.slots, ∀ th : Thread, s.thread t = some th → th.wait = .none →
              ∃ v : Thread, (t, v) ∈ g'.saved ∧ v.x = th.x ∧ v.v = th.v ∧ v.p = th.p ∧ v.pc = th.pc) ∧
      (g.saved ≠ [] → g.writes = [] → Answers (.gangPreemption src) s fun u =>
        u.gangs.find n = some { g with preempted := true, started := false, stopping := false }) ∧
      (∀ (va : Nat) (bs : List Byte) (rest : List (Nat × List Byte)), let die := dieOfCore (coreOfKey ((g.slots.head?).getD 0))
        let left (t : State) : Out := .next { t with gangs := t.gangs.put n { g with writes := rest } }
        g.saved ≠ [] → g.writes = (va, bs) :: rest → s.hostWaits g.part die va = false →
        (∀ t : State, s.serviceStore g.part die va bs = .ok t → exec (.gangPreemption src) s = left t) ∧
        (∀ r : Refused, s.serviceStore g.part die va bs = .error r →
          exec (.gangPreemption src) s = left (s.s2refusal g.part va r))))

/-! ## Engines -/

/-- A command that its engine runs: taken, not finished and not cancelled (12 R305). -/
structure Runs (s : State) (n : Nat) (c : Command) (e : Engine) (op : Nat) : Prop where
  found : s.commands.find n = some c
  engine : engineOf c.engine = some e
  op : c.op = op
  running : c.finished = none
  kept : c.cancelled = false
  taken : c.started = true

/-- A command that its engine runs and that nothing has stopped short (18 R397, 20 R433). -/
structure Goes (s : State) (n : Nat) (c : Command) (e : Engine) (op : Nat) : Prop extends Runs s n c e op where
  going : c.stop = none

/-- A step of an engine takes a command from its inbox: rejected with BADCMD where it breaks its rule, and otherwise running
(12 R305, 18 R399). -/
def Starts (s : State) (n : Nat) (c : Command) (i : Instr) (bad : Prop) : Prop :=
  let taken : Command := { c with started := true, startedAt := s.now }
  (bad → exec i s = .next (s.finishCommand n taken 1 0)) ∧ (¬bad → exec i s = .next (s.setCommand n taken))

/-- A step of a collective command, as its choice gives it (12 R310). -/
def CollectiveStep (s : State) (n : Nat) (c : Command) (i : Nat → Instr) : Prop :=
  ((i = fun k => .allgather ⟨n, k⟩) ∧ Goes s n c .collective 1) ∨ ((i = fun k => .allreduce ⟨n, k⟩) ∧ Goes s n c .collective 2)

/-- The packets of a member's share: type, class, destination, TAG, ARG and payload (15 R330, R338). -/
def sharePackets (c : Command) (bs : List Byte) (node : Nat) : List (Nat × Nat × Nat × Nat × Nat × List Byte) :=
  if c.word 6 % 4 = 2 then
    (List.range (c.word 4 / 256)).map fun b =>
      let blk := (bs.drop (256 * b)).take 256
      (0x11, 2, endpoint node c.engine, groupNumber c.members % 2 ^ 16 * 2 ^ 16 + c.word 1 % 2 ^ 16,
        crc32c blk * 2 ^ 32 + (c.rank * (c.word 4 / 256) + b), blk)
  else
    (List.range ((c.share + 4095) / 4096)).map fun j =>
      let part := (bs.drop (4096 * j)).take 4096
      (0x10, c.word 6 % 4, endpoint node c.engine, j, groupNumber c.members * 2 ^ 32 + c.word 1 % 2 ^ 32,
        part ++ List.replicate (256 - part.length) 0)

/-- 12 R305 to R310, 15 R338 to R340, 18 R397 to R399, 20 R432, R433: an engine takes a command or rejects it; a step of COPY loads
a part of a block or issues its stores, COPYR fills the next slot when one is free, GATHER moves an element, ADDV adds one at its
ATOM unit; stores perform one by one and a failure stops the command; ALLGATHER and ALLREDUCE read their group, contribute, and
complete when every chunk is there, a class-2 command at its time-out; a finished command publishes its lines and resolves its
future. The totals, the group number and the TAG of a block (log entries 28, 101, 117), the zeros and the mask issued as stores when a
class-2 command closes (log entry 74), and BADCMD for SIZE 0, RANK not below SIZE and a member word's high bits (log entry 75) are the
model's choices. -/
def Obligations.Engines : Prop :=
  ∀ (s : State) (n : Nat) (c : Command), let w := c.word
    let die := engineDie c.engine
    (∀ k : Nat, s.commands.find n = some c → s.mayStart n c = true →
      let r := (s.cluster c.copierCluster).ring (w 1 % 16)
      let size := reduceBytes (w 5 % 32)
      (engineOf c.engine = some .copier → c.op = 1 →
        Starts s n c (.copy ⟨n, k⟩) (w 0 % 256 ≠ 0 ∨ w 1 % 256 ≠ 0 ∨ w 2 % 256 ≠ 0)) ∧
      (engineOf c.engine = some .copier → c.op = 2 →
        Starts s n c (.copyr ⟨n, k⟩) (w 0 % 256 ≠ 0 ∨ w 2 % 256 ≠ 0 ∨ 16 ≤ w 1 ∨ r.en = false ∨ r.slotsz < 8)) ∧
      (engineOf c.engine = some .gather → c.op = 1 →
        Starts s n c (.gather n k)
          (w 0 % 4 ≠ 0 ∨ w 1 % 64 ≠ 0 ∨ w 4 % 64 ≠ 0 ∨ w 3 < 64 ∨ 4096 < w 3 ∨ w 3 % 64 ≠ 0)) ∧
      (engineOf c.engine = some .atomicUnit → c.op = 1 → Starts s n c (.addv n) (w 0 % 8 ≠ 0 ∨ w 1 % 8 ≠ 0)) ∧
      (engineOf c.engine = some .collective → c.op = 1 →
        Starts s n c (.allgather ⟨n, k⟩) (w 0 % 64 ≠ 0 ∨ w 3 % 64 ≠ 0 ∨ w 5 % 64 ≠ 0 ∨ (w 6 % 4 = 2 ∧ w 4 % 256 ≠ 0) ∨
          w 6 % 4 = 3 ∨ w 6 / 4 % 2 ^ 30 ≠ 0)) ∧
      (engineOf c.engine = some .collective → c.op = 2 →
        Starts s n c (.allreduce ⟨n, k⟩) (w 5 % 32 ∉ [0x00, 0x14, 0x15, 0x16] ∨ w 5 / 32 ≠ 0 ∨ w 0 % 64 ≠ 0 ∨
          w 2 % Nat.max 1 size ≠ 0 ∨ w 3 % Nat.max 1 size ≠ 0 ∨ 1 < w 6 % 4 ∨ w 6 / 4 ≠ 0))) ∧
    (∀ (j : Nat) (st : EngStore) (i : Nat → Instr),
      ((i = fun k => .copy ⟨n, k⟩) ∧ Runs s n c .copier 1) ∨ ((i = fun k => .copyr ⟨n, k⟩) ∧ Runs s n c .copier 2) ∨
        (i = Instr.gather n ∧ Runs s n c .gather 1) ∨ ((i = fun k => .allgather ⟨n, k⟩) ∧ Runs s n c .collective 1) ∨
        ((i = fun k => .allreduce ⟨n, k⟩) ∧ Runs s n c .collective 2) →
      c.sq[j]? = some st → (engineOf c.engine = some .gather → st.unit ∈ c.done) →
      (∀ x ∈ c.sq.take j, x.va + x.data.length ≤ st.va ∨ st.va + st.data.length ≤ x.va) →
      let t := s.engWalk c.part die st.va true (some st.atom)
      (∀ pa : Nat, st.place = some pa → exec (i (2 * j + 1)) s = .next (s.engPerformed n c st pa)) ∧
      (∀ (sq : List EngStore) (x : EngStore) (pa : Nat), st.place = none → t.engBegin c st.unit = .ok sq → sq[j]? = some x →
        x.place = some pa → exec (i (2 * j + 1)) s = .next (t.engPerformed n { c with sq := sq } x pa)) ∧
      (∀ e : EngStop, st.place = none → t.engBegin c st.unit = .error e →
        exec (i (2 * j + 1)) s = .next (t.haltCommand n c e st.unit))) ∧
    (∀ (st : EngStore) (y off : Nat), nameOf st.va = .tile y off → off + st.data.length ≤ 0x200000 →
      (s.engPerformed n c st (tilePlace y off)).commands.find n = some { c with sq := c.sq.erase st } ∧
      ∀ q : Nat, (s.engPerformed n c st (tilePlace y off)).mem.read q =
        if tilePlace y off ≤ q ∧ q < tilePlace y off + st.data.length then (st.data[q - tilePlace y off]?).getD 0
        else s.mem.read q) ∧
    (c.contours = [] → ∀ (atom : Bool) (l : List (Nat × Nat × List Byte)), ∃ t : State,
      issueAll atom l s c = .ok (t, { c with sq := c.sq ++ l.flatMap fun x =>
        (partsOf (if atom = true then 16 else 64) x.2.1 x.2.2).map fun q => ⟨q.1, q.2, atom, x.1, none⟩ }) ∧
      t.mem = s.mem ∧ t.commands = s.commands) ∧
    (c.stop = none → (∀ (r : Refused) (wr : Bool) (va unit : Nat), let (limit, pos, _) := s.stopAt c unit
        s.haltCommand n c (.refused r wr va) unit = (s.s2refusal c.part va r).setCommand n { c with
          sq := c.sq.filter fun st => st.place.isSome || decide (st.unit < limit)
          stop := some (limit, 2, BitVec.ofNat 64
            (r.cause.code * 2 ^ 56 + (if wr = true then 2 ^ 55 else 0) + r.reason % 128 * 2 ^ 48 + pos % 2 ^ 48)) }) ∧
      (∀ (e : EngStop) (code unit : Nat), (e, code) ∈ [(.prot, 3), (.sealed, 4), (.atomattr, 5)] →
        let (limit, _, value) := s.stopAt c unit
        s.haltCommand n c e unit = s.setCommand n { c with
          sq := c.sq.filter fun st => st.place.isSome || decide (st.unit < limit)
          stop := some (limit, code, BitVec.ofNat 64 value) }) ∧
      (∀ (u : State) (unit : Nat), let (limit, _, value) := s.stopAt c unit
        let cut (v : State) (code value : Nat) : State := v.setCommand n { c with
          sq := c.sq.filter fun st => st.place.isSome || decide (st.unit < limit)
          stop := some (limit, code, BitVec.ofNat 64 value) }
        s.haltCommand n c (.contour u) unit = cut u 6 value ∧ s.haltCommand n c .poisoned unit = cut s 7 0) ∧
      ∀ unit : Nat, engineOf c.engine = some .copier → c.op = 1 →
        let page := (w 1 + 256 * unit) / 4096 - w 1 / 4096
        let first := if page = 0 then 0 else ((w 1 / 4096 + page) * 4096 - w 1) / 256
        s.stopAt c unit = (first, 256 * first, 256 * unit)) ∧
    (∀ (limit st e : Nat) (v : Word) (i : Instr),
      (i = .copy ⟨n, 2 * e⟩ ∧ Runs s n c .copier 1) ∨ (i = .copyr ⟨n, 2 * e⟩ ∧ Runs s n c .copier 2) ∨
        (i = .gather n (2 * e) ∧ Runs s n c .gather 1) ∨ (i = .addv n ∧ Runs s n c .atomicUnit 1) ∨
        (i = .allgather ⟨n, 2 * e⟩ ∧ Runs s n c .collective 1) ∨ (i = .allreduce ⟨n, 2 * e⟩ ∧ Runs s n c .collective 2) →
      c.stop = some (limit, st, v) → c.sq = [] → (∀ b < limit, b ∈ c.done) →
      exec i s = .next (s.finishCommand n c st v.toNat)) ∧
    (Goes s n c .copier 1 →
      (∀ e : Nat, w 2 / 256 ≤ e / 17 → (∀ b < w 2 / 256, c.blockDone b = true) →
        exec (.copy ⟨n, 2 * e⟩) s = .next (s.finishCommand n c 0 (w 2))) ∧
      ∀ b : Nat, b < w 2 / 256 → c.mayCopy b = true →
        let u := if c.atom 0 = true then 16 else 64
        let begun : Command := { c with pos := Nat.max c.pos (c.pageOf b + 1) }
        (∀ sub < 256 / u, c.got.find (16 * b + sub) = none →
          (∀ (t : State) (bs : List Byte), s.engLoad c.part die (w 0 + 256 * b + u * sub) u (some (c.atom 0)) c.sq = .ok (t, bs) →
            exec (.copy ⟨n, 2 * (17 * b + sub)⟩) s =
              .next (t.setCommand n { begun with got := c.got.put (16 * b + sub) bs })) ∧
          (∀ e : EngStop, s.engLoad c.part die (w 0 + 256 * b + u * sub) u (some (c.atom 0)) c.sq = .error e →
            exec (.copy ⟨n, 2 * (17 * b + sub)⟩) s = .next (s.haltCommand n begun e b))) ∧
        ((∀ sub < 256 / u, (c.got.find (16 * b + sub)).isSome = true) →
          let bs := c.gathered (16 * b) (256 / u)
          let dst := w 1 + 256 * b
          ∀ (t : State) (d : Command),
            issueAll (c.atom 1) [(b, dst, bs.take 128), (b, dst + 128, bs.drop 128)] s
              { begun.forgets (16 * b) 16 with done := b :: c.done } = .ok (t, d) →
            exec (.copy ⟨n, 2 * (17 * b + 16)⟩) s = .next (t.setCommand n d))) ∧
    (Goes s n c .copier 2 → let cl := c.copierCluster
      let r := (s.cluster cl).ring (w 1 % 16)
      let off := c.pos * 2 ^ r.slotsz
      let blocks := Nat.min (2 ^ r.slotsz) (w 2 - off) / 256
      let u := if c.atom 0 = true then 16 else 64
      (∀ e : Nat, w 2 ≤ off → exec (.copyr ⟨n, 2 * e⟩) s = .next (s.finishCommand n c 0 c.pos)) ∧
      (∀ e : Nat, off < w 2 → r.free = 0 → exec (.copyr ⟨n, 2 * e⟩) s = .next s) ∧
      (∀ e : Nat, off < w 2 → r.free ≠ 0 → blocks ≤ e / 17 → (∀ b < blocks, c.blockDone b = true) →
        exec (.copyr ⟨n, 2 * e⟩) s =
          .next ((s.advanceRing cl (w 1 % 16) .free 1).setCommand n { c with pos := c.pos + 1, done := [] })) ∧
      ∀ b < blocks, off < w 2 → r.free ≠ 0 → b ∉ c.done →
        (∀ (sub : Nat) (t : State) (bs : List Byte), sub < 256 / u → c.got.find (16 * b + sub) = none →
          s.engLoad c.part die (w 0 + off + 256 * b + u * sub) u (some (c.atom 0)) c.sq = .ok (t, bs) →
          exec (.copyr ⟨n, 2 * (17 * b + sub)⟩) s = .next (t.setCommand n { c with got := c.got.put (16 * b + sub) bs })) ∧
        ((∀ sub < 256 / u, (c.got.find (16 * b + sub)).isSome = true) →
          let bs := c.gathered (16 * b) (256 / u)
          let dst := ringAddr cl r .free 0 0 + 256 * b
          ∀ (t : State) (d : Command),
            issueAll false [(b, dst, bs.take 128), (b, dst + 128, bs.drop 128)] s
              { c.forgets (16 * b) 16 with done := b :: c.done } = .ok (t, d) →
            exec (.copyr ⟨n, 2 * (17 * b + 16)⟩) s = .next (t.setCommand n d))) ∧
    (Goes s n c .gather 1 →
      (∀ e : Nat, w 2 ≤ e / 257 → w 2 ≤ c.done.length → c.sq = [] →
        exec (.gather n (2 * e)) s = .next (s.finishCommand n c 0 (w 2))) ∧
      ∀ i : Nat, i < w 2 → i ∉ c.done →
        (∀ (t : State) (bs : List Byte), c.got.find (256 * i) = none →
          s.engLoad c.part die (w 0 + 4 * i) 4 (some (c.atom 0)) c.sq = .ok (t, bs) →
          exec (.gather n (2 * (257 * i))) s = .next (t.setCommand n { c with got := c.got.put (256 * i) bs })) ∧
        (∀ (q : Nat) (index : List Byte), q < 128 → q < w 3 / 32 → c.got.find (256 * i) = some index →
          c.got.find (256 * i + 1 + q) = none → q = 0 ∨ c.got.find (256 * i + q) = some [] →
          let va := (w 1 + leNat index * w 3 + 32 * q) % 2 ^ 64
          let loads := exec (.gather n (2 * (257 * i + 2 * q + 1))) s
          (∀ e : EngStop, s.gatherCheck c va = some e → loads = .next (s.haltCommand n c e i)) ∧
          (∀ (t : State) (bs : List Byte), s.gatherCheck c va = none →
            s.engLoad c.part die va 32 (some false) c.sq = .ok (t, bs) →
            loads = .next (t.setCommand n { c with got := c.got.put (256 * i + 1 + q) bs }))) ∧
        (∀ (q : Nat) (bs : List Byte), q < 128 → q < w 3 / 32 → c.got.find (256 * i + 1 + q) = some bs → bs ≠ [] →
          let d := if 32 * (q + 1) < w 3 then { c with got := c.got.put (256 * i + 1 + q) [] }
            else { c.forgets (256 * i) 256 with done := i :: c.done }
          ∀ (t : State) (d' : Command), issueAll (c.atom 1) [(i, w 4 + i * w 3 + 32 * q, bs)] s d = .ok (t, d') →
            exec (.gather n (2 * (257 * i + 2 * q + 2))) s = .next (t.setCommand n d'))) ∧
    (Goes s n c .atomicUnit 1 →
      (w 2 ≤ c.pos → exec (.addv n) s = .next (s.finishCommand n c 0 (w 2))) ∧
      (∀ (t : State) (bs : List Byte), c.pos < w 2 → c.got.find 0 = none →
        s.engLoad c.part die (w 0 + 8 * c.pos) 8 (some (c.atom 0)) c.sq = .ok (t, bs) →
        exec (.addv n) s = .next (t.setCommand n { c with got := c.got.put 0 bs })) ∧
      ∀ bs : List Byte, c.pos < w 2 → c.got.find 0 = some bs → let va := w 1 + 8 * c.pos
        let t := s.engWalk c.part die va true (some true)
        (∀ pa : Nat, t.addPlace c va = .ok pa →
          let sum := BitVec.ofNat 64 (leNat (t.load pa 8)) + BitVec.ofNat 64 (leNat bs)
          exec (.addv n) s = .next (((t.storeAt c.part pa (leBytes 8 sum.toNat)).wakeWatch pa).setCommand n
            { c with pos := c.pos + 1, got := [] })) ∧
        (∀ e : EngStop, t.addPlace c va = .error e → exec (.addv n) s = .next (t.haltCommand n c e c.pos)) ∧
        ∀ g : Page, t.hostWaits c.part die (lineOf va) = false → (t.part c.part).sealedAt va = false →
          translate t c.part die (lineOf va) true = .ok g → g.atom = false → t.addPlace c va = .error .atomattr) ∧
    (∀ i : Nat → Instr, CollectiveStep s n c i →
      (∀ (e : Nat) (t : State) (bs : List Byte), c.pos = 0 → c.hasAll descKey 4 = false → atomPage s c.part die (w 0) = false →
        s.engLoad c.part die (w 0) 64 none c.sq = .ok (t, bs) → exec (i (2 * e)) s = .next (t.setCommand n { c with
          got := (List.range 4).foldl (fun m x => m.put (descKey + x) ((bs.drop (16 * x)).take 16)) c.got })) ∧
      (∀ (e x : Nat) (t : State) (bs : List Byte), c.pos = 0 → c.hasAll descKey 4 = false → atomPage s c.part die (w 0) = true →
        let missing := (List.range 4).filter fun y => (c.got.find (descKey + y)).isNone
        missing[e % missing.length]? = some x → s.engLoad c.part die (w 0 + 16 * x) 16 none c.sq = .ok (t, bs) →
        exec (i (2 * e)) s = .next (t.setCommand n { c with got := c.got.put (descKey + x) bs })) ∧
      (∀ e : Nat, c.pos = 0 → c.hasAll descKey 4 = true →
        let d := wordsOf (c.gathered descKey 4) 8
        let b := c.forgets descKey 4
        let bad := groupReserved d = true ∨ w 1 ≠ (groupDone d + 1) % 2 ^ 32 ∨ groupSize d = 0 ∨ 131072 < groupSize d ∨
          groupSize d ≤ groupRank d
        let u := s.noteTagging c.part (w 0) (groupProof d)
        let known : Command := { b with
          pos := 1, rank := groupRank d
          got := b.got.put memberKey (leBytes 8 (groupMembers d) ++ leBytes 8 (groupSize d)) }
        (bad → exec (i (2 * e)) s = .next (s.finishCommand n b 1 0)) ∧
        (¬bad → c.op = 2 → exec (i (2 * e)) s = .next (u.setCommand n known)) ∧
        (∀ a m : Bool, ¬bad → c.op = 1 → u.gatherRights b (groupSize d) = .ok (a, m) →
          exec (i (2 * e)) s = .next (u.setCommand n { known with atoms := [c.atom 0, a, m] })) ∧
        (∀ x : EngStop, ¬bad → c.op = 1 → u.gatherRights b (groupSize d) = .error x →
          exec (i (2 * e)) s = .next (u.haltCommand n b x besideUnit))) ∧
      (∀ j va size : Nat, c.pos = 1 → va < 2 ^ 64 → size < 2 ^ 64 →
        c.got.find memberKey = some (leBytes 8 va ++ leBytes 8 size) →
        let parts := partCount 16 va (4 * size)
        let list := c.gathered (memberKey + 1) parts
        let words := (List.range size).map fun r => leNat ((list.drop (4 * r)).take 4)
        (∀ (t : State) (bs : List Byte), j < parts →
          s.engLoad c.part die (partAt 16 va (4 * size) j).1 (partAt 16 va (4 * size) j).2 none c.sq = .ok (t, bs) →
          exec (i (2 * j)) s = .next (t.setCommand n { c with got := c.got.put (memberKey + 1 + j) bs })) ∧
        (parts ≤ j → c.hasAll (memberKey + 1) parts = true →
          ((∃ x ∈ words, 2 ^ 17 ≤ x) → exec (i (2 * j)) s = .next (s.finishCommand n c 1 0)) ∧
          ((∀ x ∈ words, x < 2 ^ 17) → exec (i (2 * j)) s =
            .next (s.setCommand n { c.forgets memberKey (parts + 1) with members := words, pos := 2 })))) ∧
      (∀ j : Nat, c.pos = 2 → let u := if c.atom 0 = true then 16 else 64
        let parts := partCount u (w 2) c.share
        (∀ (t : State) (bs : List Byte), j < parts →
          s.engLoad c.part die (partAt u (w 2) c.share j).1 (partAt u (w 2) c.share j).2 (some (c.atom 0)) c.sq = .ok (t, bs) →
          exec (i (2 * j)) s = .next (t.setCommand n { c with got := c.got.put (sourceKey + j) bs })) ∧
        (parts ≤ j → c.hasAll sourceKey parts = true →
          let d := c.forgets sourceKey parts
          let bs := c.gathered sourceKey parts
          exec (i (2 * j)) s = .next (s.contribute n d bs) ∧
          ((s.part c.part).tagging ≠ some (w 0) → (s.part c.part).proof.armed = none → (s.contribute n d bs).mem = s.mem ∧ ∃ l : List Packet,
            (s.contribute n d bs).outbox = s.outbox ++ l ∧
            l.map (fun x => (x.ptype, x.cls, x.dest, x.tag, x.arg, x.payload)) =
              (c.members.filter (· != s.pkg.node)).flatMap (sharePackets c bs)))) ∧
      (∀ e : Nat, c.pos = 3 →
        (c.closing = true → c.sq = [] → c.op = 2 ∨ s.totalsHere c = true → exec (i (2 * e)) s = .next (s.completeStep n c
          (if c.op = 2 then w 4 else if w 6 % 4 = 2 then c.blocks.length else (c.members.length * w 4 + 255) / 256))) ∧
        (c.closing = false → s.allArrived c = true → c.op = 1 → w 6 % 4 ≠ 2 →
          exec (i (2 * e)) s = .next (s.setCommand n { c with closing := true })) ∧
        (c.closing = false → c.op = 1 → w 6 % 4 = 2 → c.nblocks ≤ c.blocks.length →
          exec (i (2 * e)) s = .next (s.closeStipple n c)) ∧
        (c.closing = false → s.allArrived c = true → c.op = 2 →
          exec (i (2 * e)) s = .next (s.deliverAt n c { c with closing := true } 0 c.reduced)))) ∧
    (∀ (fmt x : Nat) (xs : List Nat), floatFmt fmt = none → x < 2 ^ fmtWidth fmt →
      reduceElement fmt (x :: xs) = (x + xs.sum) % 2 ^ fmtWidth fmt) ∧
    (∀ (value : Nat) (g : Page), let va := w 0 + 8
      let t := s.engWalk c.part die va true none
      let step := leBytes 4 (w 1)
      t.hostWaits c.part die (lineOf va) = false → (t.part c.part).sealedAt va = false →
      engPage t c.part die va true none = .ok g →
      (∀ (u : State) (old : List Byte), g.atom = false →
        t.performHome c.part die va 4 true (fun _ => some step) = .ok (u, old) → u.carriesTotals c = false →
        s.completeStep n c value = (u.finishCommand n c 0 value).stepTaken c.part (w 0) (w 1)) ∧
      (g.atom = true → let u := (t.storeAt c.part (g.place va) step).wakeWatch (g.place va)
        u.carriesTotals c = false →
        s.completeStep n c value = (u.finishCommand n c 0 value).stepTaken c.part (w 0) (w 1))) ∧
    (Goes s n c .collective 1 → w 6 % 4 = 2 → c.pos = 3 → c.closing = false →
      (c.startedAt + w 6 / 2 ^ 32 ≤ s.now → exec (.stippleTimeout n) s = .next (s.closeStipple n c)) ∧
      (s.now < c.startedAt + w 6 / 2 ^ 32 → exec (.stippleTimeout n) s = .next s) ∧
      let absent := (List.range c.nblocks).filter fun b => !c.blocks.contains b
      let zeros := absent.flatMap fun b => deliveries (w 3) (256 * b) (List.replicate 256 0)
      let mask := (partsOf 64 (w 5) c.mask).map fun q => (besideUnit, q.1, q.2)
      ∀ (t u : State) (d e : Command), issueAll (c.atom 1) zeros s { c with closing := true } = .ok (t, d) →
        issueAll (c.atom 2) mask t d = .ok (u, e) →
        s.closeStipple n c = (absent.foldl (fun s _ => s.count c.part ctrStipdrop) u).setCommand n e) ∧
    (s.commands.find n = some c → c.sq = [] → let gone : State := { s with commands := s.commands.erase n }
      let ends := exec (.engineCommandCompletion n) s
      (∀ (line : Nat) (rest : List Nat), c.finished.isSome = true → c.lines = line :: rest →
        ends = .next ((s.publish c.part die line false).setCommand n { c with lines := rest })) ∧
      (∀ (status : Nat) (value : Word), c.lines = [] → c.finished = some (status, value) →
        (s.part c.part).proof.armed ≠ some n →
        (c.fcan = none → ends = .next (gone.post c.future (.resolve c.future value (BitVec.ofNat 16 status)))) ∧
        (∀ ep tag : Nat, c.fcan = some (ep, tag) →
          ends = .next ((gone.answerNode c.future ep tag (answerWord 2 false false 0) 0 1).post c.future
            (.resolve c.future value (BitVec.ofNat 16 status))))) ∧
      (c.lines = [] → c.finished = none → c.cancelled = true → c.arrived = true → c.resting = true → c.fcan = none →
        (s.part c.part).proof.armed ≠ some n → ends = .next gone))

/-- 15 R341; 16 R350 to R361, R467: CUT is rejected or armed, taken at its step or at once, and fails beside a class-2 step or at
its time-out; the image is what the homes hold; a granule is copied before a write to it, or drained where the reserve is full; poison
in it ends the CUT; the drain sends its records, its tables and its header, and the counter commits before the future. The copy's
granule and the order of the drain (log entries 13, 76), the drain of a granule in the step of its write (log entry 104) and the time
in which a storage endpoint acknowledges (log entry 118) are the model's choices. -/
def Obligations.Checkpoints : Prop :=
  ∀ (s : State) (n : Nat) (c : Command), let w := c.word
    let p := c.part
    let k := s.part p
    let q := k.proof
    (s.commands.find n = some c → s.mayStart n c = true → engineOf c.engine = some .proof → c.op = 1 →
      (w 0 % 64 ≠ 0 → exec (.cut n) s = .next ((s.finishCommand n { c with started := true } 1 0).count p ctrProofref)) ∧
      (w 0 % 64 = 0 → exec (.cut n) s = .next (s.setCommand n { c with started := true, startedAt := s.now }))) ∧
    (Goes s n c .proof 1 → c.pos = 0 → c.hasAll descKey 8 = false → let u : State := s.takeFree.2
      let line := if c.hasAll descKey 4 = true then 1 else 0
      let va := w 0 + 64 * line
      let key := descKey + 4 * line
      let missing := (List.range 4).filter fun y => (c.got.find (key + y)).isNone
      let atom := atomPage u p (engineDie c.engine) va
      (∀ (t : State) (bs : List Byte), atom = false → u.engLoad p (engineDie c.engine) va 64 none c.sq = .ok (t, bs) →
        exec (.cut n) s = .next (t.setCommand n { c with
          got := (List.range 4).foldl (fun m x => m.put (key + x) ((bs.drop (16 * x)).take 16)) c.got })) ∧
      (∀ (x : Nat) (t : State) (bs : List Byte), atom = true → missing[s.takeFree.1.toNat % missing.length]? = some x →
        u.engLoad p (engineDie c.engine) (va + 16 * x) 16 none c.sq = .ok (t, bs) →
        exec (.cut n) s = .next (t.setCommand n { c with got := c.got.put (key + x) bs }))) ∧
    (Goes s n c .proof 1 → c.pos = 0 → c.hasAll descKey 8 = true →
      let g := wordsOf (c.gathered descKey 4) 8
      let d := wordsOf (c.gathered (descKey + 4) 4) 8
      let rejected (v : State) : Out := .next ((v.finishCommand n c 1 0).count p ctrProofref)
      let v := s.setPart p (k.noteCut c.future)
      let next := w 1 = (groupDone g + 1) % 2 ^ 32
      let now := w 1 = groupDone g ∧ s.stepRuns p (w 0) ((groupDone g + 1) % 2 ^ 32) (fun _ => true) = false
      let bad := groupReserved g = true ∨ groupProof g = false ∨ (∃ x : Nat, k.tagging = some x ∧ x ≠ w 0) ∨ ¬(next ∨ now)
      (s.cutOutstanding p n = true → exec (.cut n) s = rejected s) ∧
      (s.cutOutstanding p n = false → proofDesc d = none ∨ bad → exec (.cut n) s = rejected v) ∧
      ∀ x : ProofDesc, s.cutOutstanding p n = false → proofDesc d = some x → ¬bad →
        let armed := (v.setPart p ((v.part p).arm n (w 0) (w 1) s.now x)).setCommand n { c with pos := 1 }
        let class2 := (now ∧ armed.stepStippled p (w 0) (w 1) = true) ∨
          armed.stepRuns p (w 0) (w 1) (fun c => c.cls == 2 && c.op == 1) = true
        (class2 → exec (.cut n) s = .next (armed.failCut p 8 0)) ∧
        (¬class2 → now → exec (.cut n) s = .next (armed.takeCut p)) ∧
        (¬class2 → ¬now → exec (.cut n) s = .next armed) ∧
        let a := (armed.part p).proof
        armed.mem = s.mem ∧ a.armed = some n ∧ a.step = w 1 ∧ a.group = w 0 ∧ a.stores = x.stores ∧ a.imgBase = x.imgBase ∧
          a.drainShare = x.share ∧ a.taken = false ∧ a.armedAt = s.now ∧ a.injected = q.injected ∧ a.arrived = q.arrived ∧
          (armed.part p).tagging = some (w 0) ∧
          (armed.part p).reserve.length = (x.pct * (k.memSize / 65536) + 99) / 100) ∧
    (q.held = [] → let t := (s.forwardAll p).flushHomes p false fun _ => true
      let a := ((s.takeCut p).part p).proof
      a.taken = true ∧ a.image = t.imageOf p ∧ a.marked = a.image.map (·.1) ∧ a.logOpen = true ∧
        a.injCut = (t.part p).proof.injected ∧ (s.takeCut p).mem = t.mem) ∧
    (∀ group step : Nat,
      let t := if k.tagging = some group then
          s.setPart p { k with proof := { q with early := q.early.filter fun e => tagLater e.1 (step + 65535) } }
        else s
      (q.armed = some n → q.taken = false → group = q.group → step = q.step →
        s.stepTaken p group step = t.takeCut p) ∧
      (q.armed = none ∨ q.taken = true ∨ group ≠ q.group ∨ step ≠ q.step → s.stepTaken p group step = t)) ∧
    (q.armed = some n → q.taken = false → q.held = [] → s.commands.find n = some c → q.armedAt + 2 ^ 32 ≤ s.now →
      Answers (.cutTimeout p) s fun u => u.mem = s.mem ∧ (u.part p).proof.armed = none ∧
        (u.part p).counters = ((s.count p ctrProofref).part p).counters ∧
        u.commands.find n = some { c with finished := some (8, 0) }) ∧
    (q.armed = some n → q.taken = true → s.commands.find n = some c → q.acks < q.drained → q.sentAt + 2 ^ 32 ≤ s.now →
      Answers (.cutTimeout p) s fun u => u.mem = s.mem ∧ (u.part p).proof.armed = none ∧
        u.commands.find n = some { c with finished := some (8, BitVec.ofNat 64 (q.pieceOffset q.acks)) }) ∧
    (∀ gr : Nat,
      (s.writeStalls p gr = true → exec (.copyOnWrite p gr) s = .next (s.copyGranule p gr)) ∧
      (s.writeStalls p gr = false → exec (.copyOnWrite p gr) s = .next s) ∧
      (∀ pa : Nat, gr ∈ q.marked → k.granuleAt pa = some gr → s.beforeWrite p pa = s.copyGranule p gr) ∧
      (gr ∈ q.marked → s.granulePoisoned p gr = true → s.copyGranule p gr = s.stopCut p 7 0) ∧
      (∀ (r place : Nat) (bs : List Byte), gr ∈ q.marked → s.granulePoisoned p gr = false → k.reserveSlot = some r → k.stage2[r]? = some place →
        q.image.find? (·.1 == gr) = some (gr, bs) → let t := s.copyGranule p gr
        (t.part p).proof = { q with marked := q.marked.filter (· != gr), copied := q.copied ++ [(gr, r)] } ∧
          ∀ x : Nat, t.mem.read x = if place ≤ x ∧ x < place + bs.length then (bs[x - place]?).getD 0 else s.mem.read x) ∧
      (gr ∈ q.marked → s.granulePoisoned p gr = false → k.reserveSlot = none → q.taken = true →
        q.drained = 16 * q.order.length → gr ∈ q.image.map (·.1) → let t := s.copyGranule p gr
        t.mem = s.mem ∧ gr ∉ (t.part p).proof.marked ∧ t.outbox.length = s.outbox.length + 16 ∧
          (t.part p).proof.order = q.order ++ [q.image.findIdx (·.1 == gr)])) ∧
    (k.ending = false → q.held = [] → k.restored = [] → q.armed = some n → q.taken = true → q.logOpen = false →
      let m := q.image.length
      let records := 16 * (m + q.logRecords)
      let pieces := records + (dataOff m q.logRecords - 0x1000) / 4096
      let sends (off : Nat) (payload : List Byte) : Prop := Answers (.backgroundDrain p) s fun u =>
        u.mem = s.mem ∧ (u.part p).proof.drained = q.drained + 1 ∧ ∃ x : Packet, u.outbox = s.outbox ++ [x] ∧
          x.ptype = 0x12 ∧ x.cls = 1 ∧ x.dest = q.endpointOf off ∧ x.tag = q.serial % 2 ^ 32 ∧ x.arg = q.imgBase + off ∧
          x.payload = payload
      (q.drained < records → q.order.length * 16 ≤ q.drained → let i := q.nextRecord
        (s.recordPoisoned p i = true → exec (.backgroundDrain p) s = .next (s.stopCut p 7 0)) ∧
        (s.recordPoisoned p i = false → Answers (.backgroundDrain p) s fun u => u.mem = s.mem ∧ u.outbox = s.outbox ∧
          (u.part p).proof = { q with order := q.order ++ [i] })) ∧
      (q.drained < records → q.drained < q.order.length * 16 → let sub := q.drained % 16
        let i := (q.order.getLast?).getD 0
        sends (dataOff m q.logRecords + 65536 * i + 4096 * sub)
          (((fillTo (s.sealedRecord p i).1 65536).drop (4096 * sub)).take 4096)) ∧
      (records ≤ q.drained → q.drained < pieces → let off := 4096 * (q.drained - records)
        sends (0x1000 + off) (((s.imageTables p).drop off).take 4096)) ∧
      (pieces ≤ q.drained → q.acks < pieces → exec (.backgroundDrain p) s = .next s) ∧
      (q.drained = pieces → pieces ≤ q.acks → sends 0 (s.imageHeader p)) ∧
      (pieces < q.drained → pieces < q.acks → s.commands.find n = some c →
        let counter := (s.pkg.sealCounters.find k.job).getD 0 + 1
        Answers (.backgroundDrain p) s fun u => u.mem = s.mem ∧ (u.part p).proof.armed = none ∧
          u.pkg.sealCounters.find k.job = some counter ∧
          u.commands.find n = some { c with finished := some (0, BitVec.ofNat 64 counter) }))

/-! ## Packets of other nodes -/

/-- The error reply to a packet stands at the end of the outbox (22 R461). -/
def refusedWith (s u : State) (k : Packet) (code : Nat) : Prop :=
  ∃ q : Packet, u.outbox = s.outbox ++ [q] ∧ q.ptype = 0x20 ∧ q.dest = k.src ∧ q.src = k.dest ∧ q.tag = k.tag ∧
    q.arg = code * 2 ^ 56 + k.ptype * 2 ^ 48 ∧ q.payload = leBytes 8 k.arg

/-- A reply to a packet, of a type and with a payload (15 R330). -/
def replyTo (k q : Packet) (ptype op : Nat) (payload : List Byte) : Prop :=
  q.ptype = ptype ∧ q.dest = k.src ∧ q.src = k.dest ∧ q.tag = k.tag ∧ q.op = op ∧ q.payload = payload

/-- 02 R60, 12 R302, R303, R310, 15 R328 to R338, 16 R354, 20 R439, 22 R461 to R463: the gateway refuses a request of no job, of one
that ends, of another generation or of a contained partition, and holds one that comes after a cut's step; a read is answered
with the value at its home, a write and an atomic are performed there and answered; replies, acknowledgements and error replies
end the requests they name; collective data and stipple blocks reach their command and otherwise wait; a fence returns or goes
on; a management packet reaches Ramzu. The operation of an atomic (log entry 18) and the numbers by which data names its command (log
entries 101, 117) are the model's choices. -/
def Obligations.Packets : Prop :=
  ∀ (s : State) (k : Packet) (p : Nat), let a := takenFrom s k p
    let die := s.gateDie k
    let va := k.arg % 2 ^ 46
    (∀ i : Instr, (k.ptype = 3 ∧ i = .readRequest k ∨ k.ptype = 5 ∧ i = .write k ∨ k.ptype = 7 ∧ i = .atomic k) →
      k.cls < 2 → endNode k.dest = s.pkg.node → (s.gateOf k).isSome = true → s.heldFirst k = false →
      (s.partOfJob k.job = none → Answers i s fun u => u.mem = s.mem ∧ refusedWith s u k 1) ∧
      (s.partOfJob k.job = some p → (s.part p).ending = true → k.pgen = (s.part p).pgen →
        Answers i s fun u => u.mem = s.mem ∧ refusedWith s u k 9 ∧
          (u.part p).counters = ((s.count p ctrRemref).part p).counters) ∧
      (s.partOfJob k.job = some p → k.pgen ≠ (s.part p).pgen →
        Answers i s fun u => u.mem = s.mem ∧ refusedWith s u k 8 ∧
          (u.part p).counters = (((s.count p ctrPgendrop).count p ctrRemref).part p).counters) ∧
      (s.partOfJob k.job = some p → (s.part p).ending = false → k.pgen = (s.part p).pgen → s.packetStays k = false →
        (s.contained p = true → Answers i s fun u => u.mem = s.mem ∧ refusedWith s u k 9 ∧
          (u.part p).counters = ((s.count p ctrRemref).part p).counters) ∧
        (s.contained p = false → s.holdsPacket p k = true → Answers i s fun u => u.mem = s.mem ∧ u.outbox = s.outbox ∧
          (u.part p).proof.held = (s.part p).proof.held ++ [k]))) ∧
    (AdmittedAccess s k p → k.ptype = 3 → s.fabricWaits p die k = false →
      (∀ g : Page, a.fabricPlace p die va false false = .ok g → let l := (a.engWalk p die va false (some g.atom)).fabricLine p g va
        Answers (.readRequest k) s fun u => u.mem = s.mem ∧
          ∃ q : Packet, u.outbox = s.outbox ++ [q] ∧ (if l.bad = true then replyTo k q 4 1 (leBytes 8 0)
            else replyTo k q 4 0 (leBytes 8 (leNat ((l.data.drop (va % 64)).take k.len))))) ∧
      (∀ (code : Nat) (r : Option Refused), k.cls < 2 → a.fabricPlace p die va false false = .error (code, r) →
        Answers (.readRequest k) s fun u => u.mem = s.mem ∧ refusedWith s u k code)) ∧
    (∀ (g : Page) (u : State) (old : List Byte), AdmittedAccess s k p → k.ptype = 5 → s.fabricWaits p die k = false →
      let t := a.engWalk p die va true (some g.atom)
      a.fabricPlace p die va true false = .ok g →
      t.fabricStep p die g va k.payload.length (fun _ => some k.payload) = .ok (u, old) →
      ∃ q : Packet, exec (.write k) s = .next (u.emit q) ∧ replyTo k q 6 0 []) ∧
    (∀ (g : Page) (n : Nat) (f : List Byte → Option (List Byte)),
      (g.atom = true → (s.part p).proof.marked = [] → ∃ t : State,
        s.fabricStep p die g va n f = .ok (t, s.load (g.place va) n) ∧
        t.mem = (match f (s.load (g.place va) n) with
          | some bs => s.mem.write (g.place va) bs
          | none => s.mem)) ∧
      (g.atom = false → s.fabricStep p die g va n f = s.performHome p die va n true f)) ∧
    (∀ g : Page, AdmittedAccess s k p → k.ptype = 7 → s.fabricWaits p die k = false → (s.part p).proof.marked = [] →
      let t := a.engWalk p die va true (some g.atom)
      let pa := g.place va
      g.atom = true → (t.fabricLine p g va).bad = false →
      (k.op < 8 → a.fabricPlace p die va true false = .ok g →
        let new := atomicLeaves k.op (s.loadWord pa) (payloadWord k 0) (payloadWord k 2)
        Answers (.atomic k) s fun u => (∃ q : Packet, u.outbox = s.outbox ++ [q] ∧ replyTo k q 8 0 (s.load pa 8)) ∧
          u.loadWord pa = new ∧ ∀ x : Nat, x < pa ∨ pa + 8 ≤ x → u.mem.read x = s.mem.read x) ∧
      (k.op = 8 → k.payload.length = 32 → a.fabricPlace p die va true true = .ok g →
        Answers (.atomic k) s fun u => (∃ q : Packet, u.outbox = s.outbox ++ [q] ∧ replyTo k q 8 0 (s.load pa 16)) ∧
          u.load pa 16 = (if s.load pa 16 = k.payload.drop 16 then k.payload.take 16 else s.load pa 16) ∧
          ∀ x : Nat, x < pa ∨ pa + 16 ≤ x → u.mem.read x = s.mem.read x)) ∧
    (∀ (i : Instr) (r t : Nat) (o : Outstanding) (th : Thread),
      (k.ptype = 4 ∧ i = .readReply k ∧ r = 3 ∨
        k.ptype = 6 ∧ i = .writeAcknowledgement k ∧ r = 5 ∧ endLocal k.dest ≠ 9248 ∨ k.ptype = 8 ∧ i = .atomicReply k ∧ r = 7) →
      Admitted s k p → s.requestOf k r = some o → o.waiter = some (.slot t) → s.thread t = some th → k.op ≠ 1 →
      Answers i s fun u => u.mem = s.mem ∧ u.outstanding = s.outstanding.filter (· != o) ∧
        u.thread t = some { th with wait := .value (payloadWord k 0) (payloadWord k 1) }) ∧
    (Admitted s k p → k.ptype = 6 → endLocal k.dest = 9248 → (s.part p).proof.armed.isSome = true →
      Answers (.writeAcknowledgement k) s fun u => u.mem = s.mem ∧ (u.part p).proof.acks =
        (if k.tag = (s.part p).proof.serial % 2 ^ 32 then (s.part p).proof.acks + 1 else (s.part p).proof.acks)) ∧
    (Admitted s k p → k.ptype = 0x10 →
      let found := s.collectiveFor p (endNode k.src) (Command.ofStep (k.arg % 2 ^ 32) (k.arg / 2 ^ 32))
      let late := (s.part p).totalsLate (k.arg % 2 ^ 32) (k.arg / 2 ^ 32) (endNode k.src)
      (s.collectiveHere k p = false → exec (.collectiveData k) s = .next (a.refusePacket p k 0x0A)) ∧
      (s.collectiveHere k p = true → found = none → k.tag ≠ totalsChunk ∨ late = false →
        exec (.collectiveData k) s = .next s) ∧
      (s.collectiveHere k p = true → found = none → k.tag = totalsChunk → late = true →
        exec (.collectiveData k) s = .next a) ∧
      (∀ (n : Nat) (c : Command), s.collectiveHere k p = true → found = some (n, c) → k.tag ≠ totalsChunk →
        let rank := c.members.idxOf (endNode k.src)
        let bs := k.payload.take (c.share - k.tag * 4096)
        let done := chunkKey rank k.tag :: c.done.filter (· != chunkKey rank k.tag)
        let has := { c with done := done, got := c.got.put (chunkKey rank k.tag) bs }
        (c.op = 2 → exec (.collectiveData k) s = .next (a.setCommand n has)) ∧
        (∀ (t : State) (d : Command), c.op = 1 →
          issueAll (c.atom 1) (has.granulesOf (rank * c.word 4 + k.tag * 4096) bs.length) a has = .ok (t, d) →
          exec (.collectiveData k) s = .next (t.setCommand n d))) ∧
      (∀ (n : Nat) (c : Command), s.collectiveHere k p = true → found = some (n, c) → k.tag = totalsChunk → exec (.collectiveData k) s =
        .next (a.setCommand n { c with got := c.got.put (totalsKey (c.members.idxOf (endNode k.src))) k.payload }))) ∧
    (∀ (c : Command) (off n g : Nat) (bs : List Byte), 0 < n → ((64 * g, c.word 3 + 64 * g, bs) ∈ c.granulesOf off n ↔
      off / 64 ≤ g ∧ g ≤ (off + n - 1) / 64 ∧ bs.length = min 64 (c.members.length * c.word 4 - 64 * g) ∧
        ∀ j < bs.length, ∃ chunk : List Byte,
          c.got.find (chunkKey ((64 * g + j) / c.word 4) ((64 * g + j) % c.word 4 / 4096)) = some chunk ∧
            chunk[(64 * g + j) % c.word 4 % 4096]? = bs[j]?)) ∧
    (Admitted s k p → k.ptype = 0x11 → let found := s.collectiveFor p (endNode k.src) (Command.ofStipple k.tag)
      let b := k.arg % 2 ^ 32
      (found = none → (s.part p).stippleLate k.tag (endNode k.src) = false → exec (.stippleBlock k) s = .next s) ∧
      (found = none → (s.part p).stippleLate k.tag (endNode k.src) = true → exec (.stippleBlock k) s = .next a) ∧
      ∀ (n : Nat) (c : Command), found = some (n, c) →
        (crc32c k.payload ≠ k.arg / 2 ^ 32 → exec (.stippleBlock k) s = .next a) ∧
        (∀ (t : State) (d : Command), crc32c k.payload = k.arg / 2 ^ 32 → 0 < c.word 4 →
          256 * b / c.word 4 = c.members.idxOf (endNode k.src) → b < c.nblocks →
          issueAll (c.atom 1) (deliveries (c.word 3) (256 * b) k.payload) a
            { c with blocks := b :: c.blocks.filter (· != b) } = .ok (t, d) →
          exec (.stippleBlock k) s = .next (t.setCommand n d))) ∧
    (Admitted s k p → k.ptype = 0x20 → let code := bitsOf k.arg 63 56
      let rtype := bitsOf k.arg 55 48
      let value := (payloadWord k 0).toNat
      (∀ (t : Nat) (o : Outstanding) (th : Thread), rtype = 3 ∨ rtype = 5 ∨ rtype = 7 ∨ rtype = 9 →
        s.requestOf k rtype = some o → o.waiter = some (.slot t) → s.thread t = some th →
        Answers (.errorReply k) s fun u => u.mem = s.mem ∧ u.outstanding = s.outstanding.filter (· != o) ∧
          (u.part p).counters = ((s.count p ctrErrreply).part p).counters ∧
          u.thread t = some { th with wait := .refused code }) ∧
      (∀ (n : Nat) (c : Command), rtype = 0x10 →
        s.collectiveFor p (endNode k.src) (Command.ofStep (value % 2 ^ 32) (value / 2 ^ 32)) = some (n, c) →
        exec (.errorReply k) s = .next ((a.count p ctrErrreply).setCommand n
          { c with sq := c.sq.filter (·.place.isSome), stop := some (0, 8, 0) })) ∧
      (rtype = 0x12 → k.tag = (s.part p).proof.serial % 2 ^ 32 →
        exec (.errorReply k) s = .next (a.failCut p 8 (value - (s.part p).proof.imgBase))) ∧
      (rtype = 0x12 → k.tag ≠ (s.part p).proof.serial % 2 ^ 32 → exec (.errorReply k) s = .next a)) ∧
    (k.ptype = 0x21 → (s.gateOf k).isSome = true → s.heldFirst k = false → let b := s.leaveGate k
      (s.partOfJob k.job = some p → (s.part p).ending = true → k.arg = (s.part p).pgen → (s.part p).fences ≠ 0 →
        exec (.partitionFence k) s =
          .next (b.setPart p { s.part p with fences := (s.part p).fences - 1, fencedAt := s.now })) ∧
      (s.partOfJob k.job = none → exec (.partitionFence k) s = .next { b with outbox := s.outbox ++ [k] })) ∧
    (k.ptype = 0x30 → k.cls = 3 → endNode k.dest = s.pkg.node → endLocal k.dest = 0x7FFF → (s.gateOf k).isSome = true →
      s.heldFirst k = false →
      let b := s.leaveGate k
      exec (.management k) s = .next { b with pkg := { b.pkg with mgmtIn := s.pkg.mgmtIn ++ [k] } })

/-! ## Edge ports -/

/-- 15 R331 to R336; 22 R457 to R460, R465; 21 R452: a flit is checked for its CRC, its tag and its SEQ; an accepted one that finds a
slot advances SEQ and brings its packets to the gateway, and its ACK empties the replay buffer; a port asks for replay, resends
what it stored, retrains, goes down with what it holds answered, takes a new key in its idle slot, and sends one flit of what
the arbiter grants within its credit. The return of credit (log entry 30), the packing of packets and the first block after a gap
(log entry 33), that an ask for replay stays in the port (log entry 111), the gateway that a flit takes (log entry 112), the peer that
a port finds (log entry 48) and what a lost reply's requester is told (log entry 119) are the model's choices. -/
def Obligations.Ports : Prop :=
  ∀ (s : State) (m : Nat) (f : Flit), let k := s.port m
    let fclass := flitClass f
    let seq := flitSeq f
    (k.up = true → s.carries fclass = true →
      let asked (u : Port) (seq : Nat) : Prop :=
        u.replaySeq = seq ∧ (u.retraining = true ↔ k.replaySeq = seq ∧ 7 ≤ k.replays) ∧ u.stored = k.stored
      let opened := flitOpen f (keyAt k.peerKeys (flitKeysel f))
      (flitCrcOk f = false → Answers (.flitReceipt m f) s fun u => (u.port m).crcErr = k.crcErr + 1 ∧
        (u.port m).tagErr = k.tagErr ∧ (u.port m).recvSeq = k.recvSeq ∧ (u.port m).gate = k.gate ∧ u.mem = s.mem ∧
        (fclass = 0 ∨ fclass = 2 → asked (u.port m) seq) ∧ (fclass = 1 → (u.port m).stipLost = k.stipLost + 1)) ∧
      (flitCrcOk f = true → opened = none →
        Answers (.flitReceipt m f) s fun u => (u.port m).tagErr = k.tagErr + 1 ∧ (u.port m).crcErr = k.crcErr ∧
          (u.port m).recvSeq = k.recvSeq ∧ (u.port m).gate = k.gate ∧ u.mem = s.mem ∧
          (fclass = 0 ∨ fclass = 2 → asked (u.port m) seq)) ∧
      (∀ content : List Byte, flitCrcOk f = true → opened = some content → twoKeys k.keys = false →
        let begun := (k.begun fclass).1
        let room := s.rxRoom k f.gateway (fclass == 2) (s.flitPart begun content)
        let brought := ((unpackFlit (flitContent + 1) begun content).1.filter fun q => !Packet.isNotice q)
        let acked := k.stored.filter fun e => !seqCovers (flitField f 47 32) e.seq
        (fclass = 0 ∨ fclass = 2 →
          (seq = k.recvSeq → room = true → Answers (.flitReceipt m f) s fun u =>
            (u.port m).recvSeq = (k.recvSeq + 1) % 65536 ∧ (u.port m).replays = 0 ∧ (u.port m).stored = acked ∧
            (u.port m).gate.map (·.packet) = k.gate.map (·.packet) ++ brought ∧ u.mem = s.mem) ∧
          (seq = k.recvSeq → room = false → Answers (.flitReceipt m f) s fun u =>
            (u.port m).recvSeq = k.recvSeq ∧ (u.port m).stored = acked ∧ (u.port m).gate = k.gate ∧ u.mem = s.mem) ∧
          (seq ≠ k.recvSeq → Answers (.flitReceipt m f) s fun u => (u.port m).recvSeq = k.recvSeq ∧
            (u.port m).gate = k.gate ∧ (seqCovers seq k.recvSeq = true → (u.port m).replaySeq = k.recvSeq))) ∧
        (fclass = 1 → seq = k.stipRecv → begun ≠ [] → room = true → Answers (.flitReceipt m f) s fun u =>
          (u.port m).stipRecv = (seq + 1) % 65536 ∧ (u.port m).recvSeq = k.recvSeq ∧
          (u.port m).gate.map (·.packet) = k.gate.map (·.packet) ++ brought ∧ u.mem = s.mem) ∧
        (fclass = 1 → seq ≠ k.stipRecv ∨ begun = [] → let tail := content.drop f.start
          let fresh := (unpackFlit (flitContent + 1) [] tail).1.filter fun q => !Packet.isNotice q
          tail ≠ [] → s.rxRoom { k with held := k.held.filter fun x => !(k.begun 1).2.contains x.id } f.gateway false
            (s.flitPart [] tail) = true →
          Answers (.flitReceipt m f) s fun u =>
            (u.port m).stipRecv = (seq + 1) % 65536 ∧ (u.port m).recvSeq = k.recvSeq ∧
            (u.port m).gate.map (·.packet) = k.gate.map (·.packet) ++ fresh ∧ u.mem = s.mem)) ∧
      (∀ e ∈ k.stored, exec (.replay m e.seq) s = .next (s.setPort m { k with
        replayCount := k.replayCount + 1
        wire := k.wire ++ (k.stored.filter fun x => seqCovers x.seq e.seq).map (·.bytes) })) ∧
      (Answers (.linkDown m) s fun u => u.port m = { k with retraining := true } ∧ u.mem = s.mem ∧
        u.outbox = s.outbox) ∧
      (∀ key : List Byte, key ≠ [] → k.keys.length = 2 → k.slot ≤ 1 → twoKeys k.keys = false → twoKeys k.peerKeys = false →
        k.noticeOut = false →
        Answers (.keyRollover m key) s fun u => let n := if k.keys.all List.isEmpty = true then 0 else 1 - k.slot
          (u.port m).slot = n ∧ keyAt (u.port m).keys n = key ∧ (u.port m).peerKeys = k.peerKeys.set n key) ∧
      (keyAt k.keys k.slot ≠ [] → let tokens := s.tokensAfter k
        (s.grant m k tokens = none → exec (.arbitrationGrant m) s = .next (s.setPort m { k with tokens := tokens })) ∧
        (∀ c : Sending × Bool, s.grant m k tokens = some c → let q := c.1.packet
          exec (.arbitrationGrant m) s = .next (s.sendGranted m k tokens c) ∧
          (c.1.begun = false → (c.1.left + 231) / 232 ≤ s.creditOf k c.1.gateway (s.slotOwner q)) ∧
          (s.pkg.safe = true → q.cls = 3) ∧ (q.cls = 2 ∨ k.stored.length < 512) ∧
          (q.ptype = 0x12 → s.withinShare tokens q = true)) ∧
        (∀ (q : Packet) (gate held : Bool), let c : Sending × Bool := (⟨q, (packetBytes q).length, gate⟩, held)
          s.grant m k tokens = some c → (packetBytes q).length ≤ 232 → (∃ b ∈ packetBytes q, b ≠ 0) → s.followers m k c = [] →
          Answers (.arbitrationGrant m) s fun u => u.mem = s.mem ∧
            u.outbox = (if held = true then s.outbox else s.outbox.erase q) ∧
            (u.port m).sending = (if held = true then
              k.sending.eraseP fun e => e.packet == q && e.left == (packetBytes q).length else k.sending) ∧
            (let key := creditKey gate (s.slotOwner q)
             (u.port m).spent.find key = some ((k.spent.find key).getD 0 + 1)) ∧
            let bytes (n : Nat) : List Byte :=
              flitBytes (keyAt k.keys k.slot) n ((k.recvSeq + 65535) % 65536) (fclassOf q.cls) k.slot (packetBytes q)
            (q.cls = 2 → (u.port m).stipSeq = (k.stipSeq + 1) % 65536 ∧ (u.port m).stored = k.stored ∧
              (u.port m).wire = k.wire ++ [bytes k.stipSeq]) ∧
            (q.cls ≠ 2 → (u.port m).sendSeq = (k.sendSeq + 1) % 65536 ∧ (u.port m).wire = k.wire ++ [bytes k.sendSeq] ∧
              ∃ e : StoredFlit, (u.port m).stored = k.stored ++ [e] ∧ e.seq = k.sendSeq ∧ e.packets = [q] ∧
                e.bytes = bytes k.sendSeq))))
    ∧ (k.retraining = true → k.down = false →
      (∀ x : PortUp, let fits := s.pkg.safe = true ∨ (x.marnar = true ∧ x.node = s.pkg.node)
        let trained := x.lanes = 1 ∨ x.lanes = 2 ∨ x.lanes = 4
        (trained → fits → Answers (.portRetrain m x) s fun u =>
          u.port m = { k with lanes := x.lanes, retraining := false, replays := 0 } ∧ u.mem = s.mem ∧ u.outbox = s.outbox) ∧
        (trained → ¬fits → exec (.portRetrain m x) s = exec (.portDown m) s)) ∧
      (let queued := s.outbox.filter fun q => s.portOf q == some m
        let held := ((k.stored.flatMap (·.packets)) ++ k.sending.map (·.packet)).filter (·.cls != 3)
        let t := ({ s with outbox := s.outbox.filter fun q => s.portOf q != some m } : State).setPort m
          { k with down := true, lanes := 0, retraining := false, stored := [], sending := [] }
        exec (.portDown m) s = .next (((held ++ queued).foldl State.undelivered t).logWord m)) ∧
      (k.stored = [] → k.sending = [] → (∀ q ∈ s.outbox, s.portOf q = some m → q.cls = 3 ∧ q.ptype = 0x30) →
        Answers (.portDown m) s fun u => (u.port m).down = true ∧ (u.port m).lanes = 0 ∧ (u.port m).retraining = false ∧
          u.mem = s.mem ∧ u.outbox = s.outbox.filter (fun q => s.portOf q != some m))) ∧
    (∀ (q : Packet) (p t : Nat) (o : Outstanding) (th : Thread), s.partOfJob q.job = some p →
      q.ptype = 3 ∨ q.ptype = 5 ∨ q.ptype = 7 → q.cls < 2 →
      s.outstanding.find? (fun o => o.core == endLocal q.src && o.tag == q.tag && o.ptype == q.ptype) = some o →
      o.waiter = some (.slot t) → s.thread t = some th →
      (s.undelivered q).thread t = some { th with wait := .refused 7 }) ∧
    (∀ (q : Packet) (r : Nat), (q.ptype, r) ∈ [(4, 3), (6, 5), (8, 7), (10, 9)] → s.undelivered q =
      s.emit { q with ptype := 0x20, len := 8, arg := 7 * 2 ^ 56 + r * 2 ^ 48, op := 0, payload := leBytes 8 q.arg })

/-! ## Configuration registers -/

/-- 03 R64, R68; 04 R90, R94, R95, R98, R99, R111; 06 R151, R161; 07 R175 to R182; 15 R343; 19 R417 to R419; 20 R431; 22 R464: what each
register write leaves, in the launch queues, the partition, the cluster, the core and the thread, when the recorded CLSSPLIT,
MXOWN and H3 take effect, and what the host's BAR0 reads and writes. -/
def Obligations.Registers : Prop :=
  ∀ (s : State) (p v : Nat), let k := s.part p
    (∀ q : Nat, q < k.queueCount → let l := k.queue q
      let after (u : State) : LaunchQueue := (u.part p).queue q
      let span := (v % 65536 + 65536 - l.head) % 65536
      (2 ^ l.size < span → exec (.lqNotify p q v) s = .next (s.count p ctrLqover)) ∧
      (span ≤ 2 ^ l.size → Answers (.lqNotify p q v) s fun u => (after u).tail = v % 65536 ∧ (after u).head = l.head ∧
        (after u).base = l.base ∧ (after u).enable = l.enable ∧ (after u).mapped = l.mapped ∧ u.mem = s.mem ∧
        (after u).pending = (l.pending || (l.enable && !l.mapped))) ∧
      (Answers (.lqCfgWrite p q v) s fun u => (after u).enable = (bitsOf v 63 63 == 1) ∧ (after u).prio = bitsOf v 60 59 ∧
        (after u).size = (if l.enable = true ∨ l.head ≠ l.tail ∨ bitsOf v 55 52 < 4 then l.size else bitsOf v 55 52) ∧
        (after u).head = l.head ∧ (after u).tail = l.tail ∧
        (bitsOf v 63 63 = 0 → (after u).mapped = false ∧ (p, q) ∉ u.dist.slots)) ∧
      (exec (.lqBaseWrite p q v) s = .next (if l.enable = true ∨ l.head ≠ l.tail then s
        else s.setQueue p q { l with base := bitsOf v 55 7 * 128 })) ∧
      (exec (.lqDomWrite p q v) s = .next (if k.domains ≤ bitsOf v 12 0 then s
        else s.setQueue p q { l with dom := bitsOf v 12 0 }))) ∧
    (Answers (.errclr p v) s fun u => ∀ n : Nat, n < 22 →
      (((u.part p).counters.find n).getD 0) = (if v.testBit n = true then 0 else (k.counters.find n).getD 0)) ∧
    (bitsOf v 12 0 < k.domains → Answers (.plbinv p v) s fun u => u.mem = s.mem ∧ ∀ (c : Nat), ∀ e ∈ (u.core c).plb,
      ¬(e.part = p ∧ e.dom = bitsOf v 12 0)) ∧
    (12 ≤ bitsOf v 63 58 → bitsOf v 63 58 ≤ 56 → Answers (.s1inv p v) s fun u =>
      let size := 2 ^ bitsOf v 63 58
      let base := bitsOf v 55 12 * 4096 / size * size
      ∀ e ∈ (u.part p).xcache, ¬(e.page < base + size ∧ base < e.page + e.size)) ∧
    (∀ fabric : Bool, exec (.hdomFdomWrite p fabric v) s = .next (if k.domains ≤ bitsOf v 12 0 then s
      else if fabric then s.setPart p { k with fdom := bitsOf v 12 0 } else s.setPart p { k with hdom := bitsOf v 12 0 })) ∧
    (∀ cl : Nat, let u := s.cluster cl
      (u.tasks = [] → u.parked = [] → s.gangsOn cl = false → (∀ r ∈ u.rings, r.2.en = false) →
        bitsOf v 10 0 + bitsOf v 26 16 ≤ 1024 → exec (.tsareaWrite cl v) s =
          .next (s.setCluster cl { u with ringArea := bitsOf v 10 0, parkArea := bitsOf v 26 16 })) ∧
      (u.tasks ≠ [] ∨ 1024 < bitsOf v 10 0 + bitsOf v 26 16 → exec (.tsareaWrite cl v) s = .next s) ∧
      (∀ n : Nat, let r := u.ring n
        let sz := bitsOf v 24 20
        let m := bitsOf v 43 32
        (r.en = false → bitsOf v 63 63 = 1 → 6 ≤ sz → sz ≤ 17 → bitsOf v 14 0 * 64 + (m + 1) * 2 ^ sz ≤ u.ringArea * 2048 →
          Answers (.ringEnable cl n v) s fun t => let a := (t.cluster cl).ring n
            a.en = true ∧ a.slotm1 = m ∧ a.slotsz = sz ∧ a.base = bitsOf v 14 0 ∧ a.filled = 0 ∧ a.free = m + 1 ∧ a.rd = 0 ∧
            a.wr = 0 ∧ t.mem = s.mem) ∧
        (r.en = true → bitsOf v 63 63 = 0 → Answers (.ringDisable cl n v) s fun t =>
          ((t.cluster cl).ring n).en = false ∧ t.mem = s.mem ∧
          ∀ (x : Nat) (th : Thread) (side : RSide) (amount : Nat), s.thread x = some th → th.wait = .ring cl n side amount →
            t.thread x = some { th with wait := .refused 0 })) ∧
      (exec (.fspillbaseWrite cl v) s =
        .next (s.setCluster cl { u with fspillBase := bitsOf v 55 12 * 4096, spillRefused := false })) ∧
      (exec (.registerWrite p cl 0x023 v) s = .next (s.setCluster cl { u with fspillSize := bitsOf v 31 0 })) ∧
      (exec (.registerWrite p cl 0x024 v) s = .next (s.setCluster cl { u with pspillBase := bitsOf v 55 12 * 4096 })) ∧
      (exec (.registerWrite p cl 0x084 v) s = .next (s.setPart p { k with s1root := bitsOf v 47 12 * 4096 })) ∧
      (exec (.registerWrite p cl 0x108 v) s = .next (s.setPart p { k with stvec := bitsOf v 55 3 * 8 })) ∧
      (exec (.registerWrite p cl 0x109 v) s = .next (s.setPart p { k with tfBase := bitsOf v 55 16 * 65536 })) ∧
      (exec (.registerWrite p cl 0x10A v) s = .next (s.setPart p
        { k with gpe := bitsOf v 48 48 == 1, quantum := bitsOf v 31 16, twait := bitsOf v 15 0 }))) ∧
    (∀ c : Nat, let a := s.core c
      (Answers (.corecfgWrite c v) s fun u => (u.core c).sleepCfg = bitsOf v 39 38 ∧ (u.core c).mxOwn = bitsOf v 34 33 ∧
        (u.core c).clsSplit = (if 5 ≤ bitsOf v 37 35 then a.clsSplit else bitsOf v 37 35) ∧
        (s.coreEmpty c = false → (u.core c).mxNow = a.mxNow ∧ (u.core c).clsNow = a.clsNow ∧ u.mem = s.mem) ∧
        (s.coreEmpty c = true → (u.core c).mxNow = bitsOf v 34 33)) ∧
      (s.coreEmpty c = true → a.clsNow ≠ a.clsSplit → Answers (.clssplitChange c) s fun u =>
        (u.core c).clsNow = a.clsSplit ∧ (u.core c).l1 = [] ∧
        ∀ x : Nat, x < windowPlace c (a.clsNow * 0x10000) ∨ windowPlace c (a.clsSplit * 0x10000) ≤ x →
          u.mem.read x = s.mem.read x) ∧
      (s.coreEmpty c = true → exec (.mxownChange c) s = .next (s.setCore c { a with mxNow := a.mxOwn })) ∧
      (s.thread (c * 4 + 3) = none → exec (.h3Change c) s = .next (s.setCore c { a with h3Now := a.h3 })) ∧
      (exec (.srstateWrite c v) s = .next (s.setCore c { a with
        srstate := if v % 2 ^ 64 = 0 then 0x9E3779B97F4A7C15 else BitVec.ofNat 64 v }))) ∧
    (∀ (t : Nat) (th : Thread), s.thread t = some th → (s.core (coreOfKey t)).mx = none →
      exec (.fstatWrite t v) s = .next (s.setThread t { th with fstat := BitVec.ofNat 7 v })) ∧
    (∀ q : Nat, q < 4096 → v < 2 ^ 64 → let at_ := 0x100000 + q * 0x20
      exec (.lqBaseWrite p q v) s = .next (s.barWrite (p + 1) at_ 8 v) ∧
      exec (.lqCfgWrite p q v) s = .next (s.barWrite (p + 1) (at_ + 8) 8 v) ∧
      exec (.lqNotify p q v) s = .next (s.barWrite (p + 1) (at_ + 0x18) 8 v) ∧
      exec (.lqDomWrite p q v) s = .next (s.barWrite (p + 1) (0x180000 + 8 * q) 8 v) ∧
      exec (.errclr p v) s = .next (s.barWrite (p + 1) 0x200100 8 v)) ∧
    (∀ f off : Nat,
      (off % 4 ≠ 0 → s.barRead f off 4 = 0 ∧ s.barRead f off 8 = 0) ∧
      (off % 8 = 0 → off < 0x400000 → s.barRead f off 4 = s.barRead f off 8 % 2 ^ 32 ∧
        s.barRead f (off + 4) 4 = s.barRead f off 8 / 2 ^ 32 % 2 ^ 32) ∧
      (s.functionReady f = true → ∀ size : Nat,
        s.hostTurn (.barRead f off size) = s.reply (.data (s.barRead f off size)) ∧
        s.hostTurn (.barWrite f off size v) = s.barWrite f off size v))

/-! ## Ramzu and the host -/

/-- 15 R344 to R349, 16 R359, R362, R468, 17 R363, 21 R440 to R455, 22 R462, R466: a core is killed and contained with its cluster, tests
and comes back; errors of the hardware have their consequences; a supervisor is launched again; clocks are lowered; groups are
contained and mapped; the package is reset, trained, partitioned and torn down; SPDM, images, restores and TDISP are answered.
Signatures and digests are Config's (log entry 11). The model's choices in it: which slot a partition's first supervisor takes and
what a request names (log entry 42), that a kill's launch counts as its delivery (log entry 38), what a containment keeps and a
third kill reports (log entries 36, 37), a reset's shared state (log entry 43), what survives a cold reset (log entry 44), a short
image (log entry 46), throttling (log entry 83), the fences inside the package (log entry 41). -/
def Obligations.Ramzu : Prop :=
  ∀ (s : State),
    (∀ (c src pa : Nat), let cl := clusterOfCore c
      (s.core c).consumed = some (src, pa) → (s.core c).killed = false →
      (s.recent s.pkg.kills cl killWindow < 2 → (∀ t ∈ coreSlots c, ∀ th : Thread, s.thread t = some th → th.baseKind ≠ .gang) →
        Answers (.coreKill c) s fun u => (u.core c).killed = true ∧ (∀ t ∈ coreSlots c, u.thread t = none) ∧
          ((s.core c).clsNow = (s.core c).clsSplit → u.mem = s.mem) ∧
          u.pkg.kills = s.pkg.kills ++ [(cl, s.controlTime)]) ∧
      (2 ≤ s.recent s.pkg.kills cl killWindow → Answers (.coreKill c) s fun u => (u.cluster cl).contained = true ∧
        (u.cluster cl).tasks = [] ∧ (u.cluster cl).futures = [])) ∧
    (∀ c : Nat, (s.core c).killed = true → s.pkg.present (clusterOfCore c) = true →
      (s.cluster (clusterOfCore c)).contained = false →
      (Answers (.selfTestCompletion c true) s fun u => (u.core c).killed = false ∧
        ∀ a : Nat, u.mem.read a = if inWindow c a = true then 0 else s.mem.read a) ∧
      (Answers (.selfTestCompletion c false) s fun u => (u.cluster (clusterOfCore c)).contained = true ∧
        u.pkg.present (clusterOfCore c) = false)) ∧
    (∀ g : Nat, g ∈ s.pkg.failedGroups →
      (Answers (.channelTest g []) s fun u => g ∉ u.pkg.failedGroups ∧ u.mem = s.mem) ∧
      (∀ (n p : Nat), s.ownerOfGranule g = some p → (s.part p).ending = false →
        Answers (.channelTest g [n]) s fun u => g ∉ u.pkg.failedGroups ∧ (u.part p).ending = true)) ∧
    (∀ (g : Nat) (ns : List Nat), g ∉ s.pkg.failedGroups →
      exec (.channelTest g ns) s = .next { s with pkg := s.pkg.dropUnusable g }) ∧
    (∀ (p t : Nat) (m : Mcheck) (rest : List Mcheck), let k := s.part p
      k.live = true → k.ending = false → s.supervisorSlot p = none → k.mchecks = m :: rest → s.relaunchSlot p = some t →
      Answers (.supervisorRelaunch p) s fun u => u.mem = s.mem ∧
        (u.part p).mchecks = (if k.relaunch = none then rest else k.mchecks) ∧ (u.part p).relaunch = none ∧ ∃ th : Thread,
        u.thread t = some th ∧ th.kind = .supervisor ∧ th.supervisor = true ∧ th.part = p ∧
        th.pc = BitVec.ofNat 56 k.entry &&& 0xFFFFFFFFFFFFFE ∧ th.x[1] = BitVec.ofNat 64 p ∧
        th.x[2] = k.relaunch.getD m.syndrome ∧ th.dom = 0) ∧
    (exec (.patrolScrubber .corrected) s = .next ({ s with pkg := { s.pkg with corrected := s.pkg.corrected + 1 } }.logWord 0)) ∧
    (∀ (c : Nat) (tile : Bool), (s.core c).killed = false → (s.core c).consumed = none →
      Answers (.patrolScrubber (.read c tile)) s fun u =>
        (u.core c).consumed = some (if tile then 2 else 0, 2 ^ 62) ∧ u.mem = s.mem ∧ u.threads = s.threads) ∧
    (∀ pa : Nat, 2 ^ 40 ≤ pa → Answers (.patrolScrubber (.granule pa)) s fun u => u.isPoisoned pa = true ∧ u.mem = s.mem) ∧
    (∀ (p die line : Nat), let k := s.part p
      Answers (.patrolScrubber (.l2Data p die line)) s fun u => u.mem = s.mem ∧
        (∀ c ∈ (u.part p).copies, c.die = die → c.line = line → c.dirty ≠ 0 ∧ c.bad = true) ∧
        ∀ c ∈ k.copies, ¬(c.die = die ∧ c.line = line) → c ∈ (u.part p).copies) ∧
    (∀ cl : Nat, s.pkg.present cl = true → (s.cluster cl).contained = false →
      Answers (.patrolScrubber (.table cl)) s fun u => (u.cluster cl).contained = true ∧ (u.cluster cl).futures = []) ∧
    (∀ g : Nat, exec (.patrolScrubber (.l2Tags g)) s = .next (s.failGroup g 4)) ∧
    (exec (.patrolScrubber .control) s = .next (s.warmReset [24] 9 [] [])) ∧
    (∀ (cl : Nat) (first second : Nat × Nat), let clock := Nat.min (s.cluster cl).clockMax s.pkg.clkMax
      let births := (s.pkg.births.find cl).getD []
      let counts := [first.1, first.2, second.1, second.2]
      let target := Nat.max s.pkg.clkFloor (s.pkg.clkMax - lowerings births counts)
      s.pkg.present cl = true →
      (target < clock → driftAbove births counts 13 = false → Answers (.ageingMonitorCheck cl first second) s fun u =>
        (u.cluster cl).clockMax = target ∧ u.mem = s.mem) ∧
      (driftAbove births counts 13 = true → target = s.pkg.clkFloor →
        Answers (.ageingMonitorCheck cl first second) s fun u =>
          (u.cluster cl).contained = true ∧ u.pkg.present cl = false)) ∧
    (∀ celsius watts : Nat, exec (.throttle celsius watts) s =
      if celsius < 105 then .next s else exec (.warmReset ⟨[], [], []⟩) s) ∧
    (∀ units failing ports : List Nat, Answers (.warmReset ⟨units, failing, ports⟩) s fun u => u.now = 0 ∧ u.gangs = [] ∧ u.commands = [] ∧ u.wakes = [] ∧
      u.transit = [] ∧ u.outstanding = [] ∧ u.outbox = [] ∧
      (∀ a : Nat, 2 ^ 52 ≤ a → a < 2 ^ 60 → u.mem.read a = 0) ∧
      ∀ (t : Nat) (th : Thread), u.thread t = some th → th.kind = .supervisor ∧ th.supervisor = true) ∧
    (∀ (fuses : Fuses) (image : List Byte) (up : List PortUp),
      let boot : State := { State.reset with schedule := s.schedule, free := s.free, pkg := { State.reset.pkg with
        stage := 1, measurement := Config.sha512 image, sealCounters := s.pkg.sealCounters } }
      (Config.signatureValid image = false → exec (.coldReset fuses image up) s = .next boot) ∧
      (Config.signatureValid image = true → exec (.coldReset fuses image up) s =
        .next ((({ boot with pkg := boot.pkg.loadFuses fuses } : State).readMonitors fuses).train up)) ∧
      let k := boot.pkg.loadFuses fuses
      k.topo = fuses.topo % 256 ∧ (∀ d < 6, k.capCluster[d]? = some ((fuses.clusters[d]?).getD 0 % 2 ^ 64) ∧
        k.capChan[d]? = some ((fuses.channels[d]?).getD 0 % 2 ^ 64)) ∧
      ∀ g < 24, k.granUsable.testBit g = k.usable g) ∧
    (∀ up : List PortUp, s.pkg.safe = true → s.pkg.stage = 6 → exec (.retrainingRequest up) s = .next (s.train up) ∧
      (∀ n : Nat, topologyNode s.pkg.topo up = some n →
        (s.train up).pkg.safe = false ∧ (s.train up).pkg.node = n ∧ (s.train up).pkg.stage = 8) ∧
      (topologyNode s.pkg.topo up = none → (s.train up).pkg.safe = true)) ∧
    (∀ (r : PartSpec) (p t : Nat), s.freePart = some p → s.launchSlot r.granules = some t → s.grants r = true →
      Answers (.partitionCreation r) s fun u => let k := u.part p
        k.live = true ∧ k.granules = r.granules ∧ k.job = r.job ∧ k.domains = r.domains ∧ k.stage2 = r.stage2 ∧
        k.memSize = r.stage2.length * 65536 ∧ k.domBase = 0 ∧ k.s1root = 0 ∧ k.stvec = 0 ∧ k.counters = [] ∧ u.mem = s.mem ∧
        ∃ th : Thread, u.thread t = some th ∧ th.kind = .supervisor ∧ th.supervisor = true ∧ th.part = p ∧
          th.pc = BitVec.ofNat 56 r.entry &&& 0xFFFFFFFFFFFFFE ∧ th.x[1] = BitVec.ofNat 64 p ∧ th.x[2] = 0 ∧ th.dom = 0) ∧
    (∀ p : Nat, let k := s.part p
      k.live = true →
      (k.ending = false → Answers (.teardown p) s fun u => (u.part p).ending = true ∧ u.mem = s.mem ∧
        (u.part p).fences = s.trainedPorts.length ∧ (∀ e ∈ u.threads, e.2.part ≠ p) ∧ (∀ e ∈ u.commands, e.2.part ≠ p)) ∧
      (k.ending = true → k.fences = 0 → k.fencedAt + 1500000 ≤ s.now → Answers (.teardown p) s fun u =>
        (u.part p).live = false ∧ (∀ e ∈ u.threads, e.2.part ≠ p) ∧
        ∀ a : Nat, u.mem.read a = if inGranules k.granules a = true then 0 else s.mem.read a)) ∧
    (∀ q : Requester, (s.hears q = false → ∀ r : SpdmAsk, exec (.spdmRequest q r) s = .next s) ∧
      (s.hears q = true →
        (∀ (n : Nat) (bs : List Byte), s.measured q n = some bs →
          exec (.spdmRequest q (.measurement n)) s = .next (s.answerTo q (Config.spdmSign bs))) ∧
        (∀ n : Nat, s.measured q n = none → exec (.spdmRequest q (.measurement n)) s = .next (s.invalidRequest q)) ∧
        (∀ (p : Nat) (key : List Byte) (verified : Bool), q = .vf p → exec (.spdmRequest q (.secret key verified)) s =
          .next (if verified = true ∧ key.length = 32 then s.setPart p { s.part p with secret := some key }
            else s.invalidRequest q)) ∧
        (∀ (p : Nat) (key : List Byte), q = .vf p →
          exec (.spdmRequest q (.ideKey key)) s = .next (s.setPart p { s.part p with ideKey := key })) ∧
        (∀ req : List Byte, exec (.spdmRequest q (.other req)) s = .next (s.answerTo q (Config.spdmSign req))))) ∧
    (∀ (p : Nat), let k := s.part p
      k.live = true →
      (∀ image : List Byte, exec (.imageSubmission p image) s = .next (if k.frozen = true then s
        else s.setPart p { k with measurement := Config.sha512 (k.measurement ++ Config.sha512 image) })) ∧
      (∀ r : Restore, let n := imageNat r.image 0x028 8
        exec (.restoreRequest p r) s = .next (match restoreRefusal k ((s.pkg.sealCounters.find k.job).getD 0) r with
          | some reason =>
            (if reason ∈ [2, 3, 4, 8] then s.setPart p { k with frozen := true } else s).refuseRestore p reason
          | none => let t := s.setPart p { k with frozen := true }
            if r.image.length < restoreSize r.image then (t.zeroPart p).refuseRestore p 7
            else match openImage k r.image n ((imageNat r.image 0x030 8 + 65535) / 65536) with
              | none => (t.zeroPart p).refuseRestore p 5
              | some recs => (t.writeImage p r.image n recs).getD s)) ∧
      (k.tdisp = .unlocked → exec (.tdispRequest p false) s = .next (s.setPart p { k with tdisp := .locked })) ∧
      (k.tdisp = .locked → exec (.tdispRequest p true) s =
        .next (if k.ideKey = [] then s else s.setPart p { k with tdisp := .run })) ∧
      (k.tdisp = .locked ∨ k.tdisp = .run → Answers (.tdispErrorEntry p) s fun u => (u.part p).tdisp = .error ∧
        (u.part p).ideKey = [] ∧ u.mem = s.mem ∧ (∀ c ∈ (u.part p).copies, c.pa < 2 ^ 60) ∧
        ∀ c : Nat, ∀ l ∈ (u.core c).l1, l.part = p → l.pa < 2 ^ 60) ∧
      (k.tdisp = .error → exec (.stopInterfaceRequest p) s = .next (s.setPart p { k with tdisp := .unlocked }))) ∧
    (∀ g : Nat, g < 24 → g ∉ s.pkg.failedGroups →
      ((∀ f ∈ s.pkg.failedGroups, f / 4 ≠ g / 4) → Answers (.dieToDieLinkFailure (some g)) s fun u =>
        u.pkg.failedGroups = s.pkg.failedGroups ++ [g] ∧ (s.ownerOfGranule g = none → u.mem = s.mem) ∧
        ∀ p : Nat, s.ownerOfGranule g = some p →
          u.mem = (((s.loseFlights p g).dropGroupL1 g).flushHomes p true fun h => decide (h.pa < 2 ^ 40) && h.pa / 2 ^ 35 == g).mem ∧
          ∀ i pa : Nat, (s.part p).stage2[i]? = some pa → pa < 2 ^ 40 → pa / 2 ^ 35 = g → i ∈ (u.part p).s2refused) ∧
      (∀ f : Nat, s.pkg.failedGroups = [f] → f / 4 = g / 4 →
        exec (.dieToDieLinkFailure (some g)) s = .next (s.warmReset [f, g] 8 [] []))) ∧
    exec (.dieToDieLinkFailure none) s = .next (s.warmReset [24] 8 [] [])
end

