-- ==== Sys2Proof/Laws/Dispatch.lean ====
section
/-!
SUPPORT. Each instruction and operation runs its own meaning: one equation per constructor.
-/

namespace Sys2Proof.Laws

open Sys2Proof.Machine

theorem exec_add (g : Guard) (d : Reg) (a : Reg) (b : Reg) (s : State) :
    exec (.add g d a b) s = execAdd g d a b s := rfl
theorem exec_sub (g : Guard) (d : Reg) (a : Reg) (b : Reg) (s : State) :
    exec (.sub g d a b) s = execSub g d a b s := rfl
theorem exec_and (g : Guard) (d : Reg) (a : Reg) (b : Reg) (s : State) :
    exec (.and g d a b) s = execAnd g d a b s := rfl
theorem exec_or (g : Guard) (d : Reg) (a : Reg) (b : Reg) (s : State) : exec (.or g d a b) s = execOr g d a b s := rfl
theorem exec_xor (g : Guard) (d : Reg) (a : Reg) (b : Reg) (s : State) :
    exec (.xor g d a b) s = execXor g d a b s := rfl
theorem exec_andn (g : Guard) (d : Reg) (a : Reg) (b : Reg) (s : State) :
    exec (.andn g d a b) s = execAndn g d a b s := rfl
theorem exec_sll (g : Guard) (d : Reg) (a : Reg) (b : Reg) (s : State) :
    exec (.sll g d a b) s = execSll g d a b s := rfl
theorem exec_srl (g : Guard) (d : Reg) (a : Reg) (b : Reg) (s : State) :
    exec (.srl g d a b) s = execSrl g d a b s := rfl
theorem exec_sra (g : Guard) (d : Reg) (a : Reg) (b : Reg) (s : State) :
    exec (.sra g d a b) s = execSra g d a b s := rfl
theorem exec_rol (g : Guard) (d : Reg) (a : Reg) (b : Reg) (s : State) :
    exec (.rol g d a b) s = execRol g d a b s := rfl
theorem exec_min (g : Guard) (d : Reg) (a : Reg) (b : Reg) (s : State) :
    exec (.min g d a b) s = execMin g d a b s := rfl
theorem exec_max (g : Guard) (d : Reg) (a : Reg) (b : Reg) (s : State) :
    exec (.max g d a b) s = execMax g d a b s := rfl
theorem exec_minu (g : Guard) (d : Reg) (a : Reg) (b : Reg) (s : State) :
    exec (.minu g d a b) s = execMinu g d a b s := rfl
theorem exec_maxu (g : Guard) (d : Reg) (a : Reg) (b : Reg) (s : State) :
    exec (.maxu g d a b) s = execMaxu g d a b s := rfl
theorem exec_mul (g : Guard) (d : Reg) (a : Reg) (b : Reg) (s : State) :
    exec (.mul g d a b) s = execMul g d a b s := rfl
theorem exec_mulh (g : Guard) (d : Reg) (a : Reg) (b : Reg) (s : State) :
    exec (.mulh g d a b) s = execMulh g d a b s := rfl
theorem exec_mulhu (g : Guard) (d : Reg) (a : Reg) (b : Reg) (s : State) :
    exec (.mulhu g d a b) s = execMulhu g d a b s := rfl
theorem exec_div (g : Guard) (d : Reg) (a : Reg) (b : Reg) (s : State) :
    exec (.div g d a b) s = execDiv g d a b s := rfl
theorem exec_divu (g : Guard) (d : Reg) (a : Reg) (b : Reg) (s : State) :
    exec (.divu g d a b) s = execDivu g d a b s := rfl
theorem exec_rem (g : Guard) (d : Reg) (a : Reg) (b : Reg) (s : State) :
    exec (.rem g d a b) s = execRem g d a b s := rfl
theorem exec_remu (g : Guard) (d : Reg) (a : Reg) (b : Reg) (s : State) :
    exec (.remu g d a b) s = execRemu g d a b s := rfl
theorem exec_clz (g : Guard) (d : Reg) (a : Reg) (s : State) : exec (.clz g d a) s = execClz g d a s := rfl
theorem exec_ctz (g : Guard) (d : Reg) (a : Reg) (s : State) : exec (.ctz g d a) s = execCtz g d a s := rfl
theorem exec_popc (g : Guard) (d : Reg) (a : Reg) (s : State) : exec (.popc g d a) s = execPopc g d a s := rfl
theorem exec_adx (g : Guard) (sh : Fin 5) (d : Reg) (a : Reg) (b : Reg) (s : State) :
    exec (.adx g sh d a b) s = execAdx g sh d a b s := rfl
theorem exec_cmp (g : Guard) (cc : Cc) (pd : Reg8) (a : Reg) (b : Reg) (s : State) :
    exec (.cmp g cc pd a b) s = execCmp g cc pd a b s := rfl
theorem exec_cmpiSigned (g : Guard) (cc : CcS) (pd : Reg8) (a : Reg) (imm : BitVec 11) (s : State) :
    exec (.cmpiSigned g cc pd a imm) s = execCmpiSigned g cc pd a imm s := rfl
theorem exec_cmpiUnsigned (g : Guard) (cc : CcU) (pd : Reg8) (a : Reg) (imm : BitVec 11) (s : State) :
    exec (.cmpiUnsigned g cc pd a imm) s = execCmpiUnsigned g cc pd a imm s := rfl
theorem exec_madd (g : Guard) (e : Reg8) (d : Reg) (a : Reg) (b : Reg) (s : State) :
    exec (.madd g e d a b) s = execMadd g e d a b s := rfl
theorem exec_msub (g : Guard) (e : Reg8) (d : Reg) (a : Reg) (b : Reg) (s : State) :
    exec (.msub g e d a b) s = execMsub g e d a b s := rfl
theorem exec_bfx (g : Guard) (e : Reg8) (d : Reg) (a : Reg) (b : Reg) (s : State) :
    exec (.bfx g e d a b) s = execBfx g e d a b s := rfl
theorem exec_bfi (g : Guard) (e : Reg8) (d : Reg) (a : Reg) (b : Reg) (s : State) :
    exec (.bfi g e d a b) s = execBfi g e d a b s := rfl
theorem exec_addi (g : Guard) (d : Reg) (a : Reg) (imm : BitVec 11) (s : State) :
    exec (.addi g d a imm) s = execAddi g d a imm s := rfl
theorem exec_andi (g : Guard) (d : Reg) (a : Reg) (imm : BitVec 11) (s : State) :
    exec (.andi g d a imm) s = execAndi g d a imm s := rfl
theorem exec_ori (g : Guard) (d : Reg) (a : Reg) (imm : BitVec 11) (s : State) :
    exec (.ori g d a imm) s = execOri g d a imm s := rfl
theorem exec_xori (g : Guard) (d : Reg) (a : Reg) (imm : BitVec 11) (s : State) :
    exec (.xori g d a imm) s = execXori g d a imm s := rfl
theorem exec_slli (g : Guard) (d : Reg) (a : Reg) (sh : BitVec 6) (s : State) :
    exec (.slli g d a sh) s = execSlli g d a sh s := rfl
theorem exec_srli (g : Guard) (d : Reg) (a : Reg) (sh : BitVec 6) (s : State) :
    exec (.srli g d a sh) s = execSrli g d a sh s := rfl
theorem exec_srai (g : Guard) (d : Reg) (a : Reg) (sh : BitVec 6) (s : State) :
    exec (.srai g d a sh) s = execSrai g d a sh s := rfl
theorem exec_li (g : Guard) (d : Reg) (imm : BitVec 16) (s : State) : exec (.li g d imm) s = execLi g d imm s := rfl
theorem exec_lsh (g : Guard) (d : Reg) (imm : BitVec 16) (s : State) :
    exec (.lsh g d imm) s = execLsh g d imm s := rfl
theorem exec_move (g : Guard) (ed : Reg8) (a : Reg) (s : State) : exec (.move g ed a) s = execMove g ed a s := rfl
theorem exec_movx (g : Guard) (d : Reg) (ea : Reg8) (s : State) : exec (.movx g d ea) s = execMovx g d ea s := rfl
theorem exec_sel (g : Guard) (p : Reg8) (d : Reg) (a : Reg) (b : Reg) (s : State) :
    exec (.sel g p d a b) s = execSel g p d a b s := rfl
theorem exec_br (g : Guard) (off : BitVec 21) (s : State) : exec (.br g off) s = execBr g off s := rfl
theorem exec_call (g : Guard) (off : BitVec 21) (s : State) : exec (.call g off) s = execCall g off s := rfl
theorem exec_jr (g : Guard) (a : Reg) (s : State) : exec (.jr g a) s = execJr g a s := rfl
theorem exec_callr (g : Guard) (a : Reg) (s : State) : exec (.callr g a) s = execCallr g a s := rfl
theorem exec_ret (g : Guard) (s : State) : exec (.ret g) s = execRet g s := rfl
theorem exec_loop (g : Guard) (a : Reg) (len : BitVec 10) (s : State) :
    exec (.loop g a len) s = execLoop g a len s := rfl
theorem exec_loopi (g : Guard) (count : BitVec 11) (len : BitVec 10) (s : State) :
    exec (.loopi g count len) s = execLoopi g count len s := rfl
theorem exec_pand (g : Guard) (pd : Reg8) (pa : Reg8) (pb : Reg8) (s : State) :
    exec (.pand g pd pa pb) s = execPand g pd pa pb s := rfl
theorem exec_por (g : Guard) (pd : Reg8) (pa : Reg8) (pb : Reg8) (s : State) :
    exec (.por g pd pa pb) s = execPor g pd pa pb s := rfl
theorem exec_pxor (g : Guard) (pd : Reg8) (pa : Reg8) (pb : Reg8) (s : State) :
    exec (.pxor g pd pa pb) s = execPxor g pd pa pb s := rfl
theorem exec_pandn (g : Guard) (pd : Reg8) (pa : Reg8) (pb : Reg8) (s : State) :
    exec (.pandn g pd pa pb) s = execPandn g pd pa pb s := rfl
theorem exec_porn (g : Guard) (pd : Reg8) (pa : Reg8) (pb : Reg8) (s : State) :
    exec (.porn g pd pa pb) s = execPorn g pd pa pb s := rfl
theorem exec_pget (g : Guard) (d : Reg) (s : State) : exec (.pget g d) s = execPget g d s := rfl
theorem exec_pset (g : Guard) (a : Reg) (s : State) : exec (.pset g a) s = execPset g a s := rfl
theorem exec_ld (g : Guard) (w : Width) (z : Bool) (d : Reg) (a : Reg) (disp : BitVec 8) (s : State) :
    exec (.ld g w z d a disp) s = execLd g w z d a disp s := rfl
theorem exec_ldAcq (g : Guard) (sc : Scope) (w : Width) (z : Bool) (d : Reg) (a : Reg) (disp : BitVec 5) (s : State) :
    exec (.ldAcq g sc w z d a disp) s = execLdAcq g sc w z d a disp s := rfl
theorem exec_ldCon (g : Guard) (w : Width) (z : Bool) (d : Reg) (a : Reg) (disp : BitVec 5) (s : State) :
    exec (.ldCon g w z d a disp) s = execLdCon g w z d a disp s := rfl
theorem exec_st (g : Guard) (w : Width) (home : Bool) (src : Reg) (a : Reg) (disp : BitVec 8) (s : State) :
    exec (.st g w home src a disp) s = execSt g w home src a disp s := rfl
theorem exec_stRel (g : Guard) (sc : Scope) (w : Width) (home : Bool) (src : Reg) (a : Reg) (disp : BitVec 5) (s : State) :
    exec (.stRel g sc w home src a disp) s = execStRel g sc w home src a disp s := rfl
theorem exec_aadd (g : Guard) (o : AOrd) (sc : AScope) (home : Bool) (d : Reg) (a : Reg) (b : Reg) (s : State) :
    exec (.aadd g o sc home d a b) s = execAadd g o sc home d a b s := rfl
theorem exec_amin (g : Guard) (o : AOrd) (sc : AScope) (home : Bool) (d : Reg) (a : Reg) (b : Reg) (s : State) :
    exec (.amin g o sc home d a b) s = execAmin g o sc home d a b s := rfl
theorem exec_amax (g : Guard) (o : AOrd) (sc : AScope) (home : Bool) (d : Reg) (a : Reg) (b : Reg) (s : State) :
    exec (.amax g o sc home d a b) s = execAmax g o sc home d a b s := rfl
theorem exec_aand (g : Guard) (o : AOrd) (sc : AScope) (home : Bool) (d : Reg) (a : Reg) (b : Reg) (s : State) :
    exec (.aand g o sc home d a b) s = execAand g o sc home d a b s := rfl
theorem exec_aor (g : Guard) (o : AOrd) (sc : AScope) (home : Bool) (d : Reg) (a : Reg) (b : Reg) (s : State) :
    exec (.aor g o sc home d a b) s = execAor g o sc home d a b s := rfl
theorem exec_axor (g : Guard) (o : AOrd) (sc : AScope) (home : Bool) (d : Reg) (a : Reg) (b : Reg) (s : State) :
    exec (.axor g o sc home d a b) s = execAxor g o sc home d a b s := rfl
theorem exec_aswap (g : Guard) (o : AOrd) (sc : AScope) (home : Bool) (d : Reg) (a : Reg) (b : Reg) (s : State) :
    exec (.aswap g o sc home d a b) s = execAswap g o sc home d a b s := rfl
theorem exec_acas (g : Guard) (o : AOrd) (sc : AScope) (home : Bool) (d : Reg) (a : Reg) (b : Reg) (s : State) :
    exec (.acas g o sc home d a b) s = execAcas g o sc home d a b s := rfl
theorem exec_acasq (g : Guard) (o : AOrd) (sc : AScope) (d : Reg) (a : Reg) (b : Reg) (s : State) :
    exec (.acasq g o sc d a b) s = execAcasq g o sc d a b s := rfl
theorem exec_fence (g : Guard) (sc : Scope) (s : State) : exec (.fence g sc) s = execFence g sc s := rfl
theorem exec_sealR (g : Guard) (a : Reg) (s : State) : exec (.sealR g a) s = execSealR g a s := rfl
theorem exec_unsealR (g : Guard) (a : Reg) (s : State) : exec (.unsealR g a) s = execUnsealR g a s := rfl
theorem exec_waitv (g : Guard) (a : Reg) (b : Reg) (s : State) : exec (.waitv g a b) s = execWaitv g a b s := rfl
theorem exec_semp (g : Guard) (k : Fin 4) (a : Reg) (s : State) : exec (.semp g k a) s = execSemp g k a s := rfl
theorem exec_semv (g : Guard) (k : Fin 4) (a : Reg) (s : State) : exec (.semv g k a) s = execSemv g k a s := rfl
theorem exec_barw (g : Guard) (ch : Fin 4) (d : Reg) (a : Reg) (b : Reg) (s : State) :
    exec (.barw g ch d a b) s = execBarw g ch d a b s := rfl
theorem exec_rwait (g : Guard) (side : RSide) (h : Handle) (n : BitVec 11) (s : State) :
    exec (.rwait g side h n) s = execRwait g side h n s := rfl
theorem exec_radv (g : Guard) (side : RSide) (h : Handle) (n : BitVec 11) (s : State) :
    exec (.radv g side h n) s = execRadv g side h n s := rfl
theorem exec_cwb (g : Guard) (a : Reg) (s : State) : exec (.cwb g a) s = execCwb g a s := rfl
theorem exec_cinv (g : Guard) (a : Reg) (s : State) : exec (.cinv g a) s = execCinv g a s := rfl
theorem exec_iinv (g : Guard) (a : Reg) (s : State) : exec (.iinv g a) s = execIinv g a s := rfl
theorem exec_ifb (g : Guard) (s : State) : exec (.ifb g) s = execIfb g s := rfl
theorem exec_ldr (g : Guard) (d : Reg) (h : Handle) (b : Reg) (s : State) :
    exec (.ldr g d h b) s = execLdr g d h b s := rfl
theorem exec_str (g : Guard) (src : Reg) (h : Handle) (b : Reg) (s : State) :
    exec (.str g src h b) s = execStr g src h b s := rfl
theorem exec_ctset (g : Guard) (n : Fin 16) (a : Reg) (s : State) : exec (.ctset g n a) s = execCtset g n a s := rfl
theorem exec_ctclr (g : Guard) (d : Reg) (n : Fin 16) (s : State) : exec (.ctclr g d n) s = execCtclr g d n s := rfl
theorem exec_vadd (g : Guard) (t : IType) (d : Reg) (a : Reg) (b : Reg) (s : State) :
    exec (.vadd g t d a b) s = execVadd g t d a b s := rfl
theorem exec_vsub (g : Guard) (t : IType) (d : Reg) (a : Reg) (b : Reg) (s : State) :
    exec (.vsub g t d a b) s = execVsub g t d a b s := rfl
theorem exec_vmul (g : Guard) (t : IType) (d : Reg) (a : Reg) (b : Reg) (s : State) :
    exec (.vmul g t d a b) s = execVmul g t d a b s := rfl
theorem exec_vmin (g : Guard) (t : IType) (d : Reg) (a : Reg) (b : Reg) (s : State) :
    exec (.vmin g t d a b) s = execVmin g t d a b s := rfl
theorem exec_vmax (g : Guard) (t : IType) (d : Reg) (a : Reg) (b : Reg) (s : State) :
    exec (.vmax g t d a b) s = execVmax g t d a b s := rfl
theorem exec_vminu (g : Guard) (t : IType) (d : Reg) (a : Reg) (b : Reg) (s : State) :
    exec (.vminu g t d a b) s = execVminu g t d a b s := rfl
theorem exec_vmaxu (g : Guard) (t : IType) (d : Reg) (a : Reg) (b : Reg) (s : State) :
    exec (.vmaxu g t d a b) s = execVmaxu g t d a b s := rfl
theorem exec_vand (g : Guard) (t : IType) (d : Reg) (a : Reg) (b : Reg) (s : State) :
    exec (.vand g t d a b) s = execVand g t d a b s := rfl
theorem exec_vor (g : Guard) (t : IType) (d : Reg) (a : Reg) (b : Reg) (s : State) :
    exec (.vor g t d a b) s = execVor g t d a b s := rfl
theorem exec_vxor (g : Guard) (t : IType) (d : Reg) (a : Reg) (b : Reg) (s : State) :
    exec (.vxor g t d a b) s = execVxor g t d a b s := rfl
theorem exec_vsll (g : Guard) (t : IType) (d : Reg) (a : Reg) (b : Reg) (s : State) :
    exec (.vsll g t d a b) s = execVsll g t d a b s := rfl
theorem exec_vsrl (g : Guard) (t : IType) (d : Reg) (a : Reg) (b : Reg) (s : State) :
    exec (.vsrl g t d a b) s = execVsrl g t d a b s := rfl
theorem exec_vsra (g : Guard) (t : IType) (d : Reg) (a : Reg) (b : Reg) (s : State) :
    exec (.vsra g t d a b) s = execVsra g t d a b s := rfl
theorem exec_vadds (g : Guard) (t : IType) (d : Reg) (a : Reg) (b : Reg) (s : State) :
    exec (.vadds g t d a b) s = execVadds g t d a b s := rfl
theorem exec_vsubs (g : Guard) (t : IType) (d : Reg) (a : Reg) (b : Reg) (s : State) :
    exec (.vsubs g t d a b) s = execVsubs g t d a b s := rfl
theorem exec_vfadd (g : Guard) (t : FType) (d : Reg) (a : Reg) (b : Reg) (s : State) :
    exec (.vfadd g t d a b) s = execVfadd g t d a b s := rfl
theorem exec_vfsub (g : Guard) (t : FType) (d : Reg) (a : Reg) (b : Reg) (s : State) :
    exec (.vfsub g t d a b) s = execVfsub g t d a b s := rfl
theorem exec_vfmul (g : Guard) (t : FType) (d : Reg) (a : Reg) (b : Reg) (s : State) :
    exec (.vfmul g t d a b) s = execVfmul g t d a b s := rfl
theorem exec_vfdiv (g : Guard) (t : FType) (d : Reg) (a : Reg) (b : Reg) (s : State) :
    exec (.vfdiv g t d a b) s = execVfdiv g t d a b s := rfl
theorem exec_vfmin (g : Guard) (t : FType) (d : Reg) (a : Reg) (b : Reg) (s : State) :
    exec (.vfmin g t d a b) s = execVfmin g t d a b s := rfl
theorem exec_vfmax (g : Guard) (t : FType) (d : Reg) (a : Reg) (b : Reg) (s : State) :
    exec (.vfmax g t d a b) s = execVfmax g t d a b s := rfl
theorem exec_vfsqrt (g : Guard) (t : FType) (d : Reg) (a : Reg) (s : State) :
    exec (.vfsqrt g t d a) s = execVfsqrt g t d a s := rfl
theorem exec_vfabs (g : Guard) (t : FType) (d : Reg) (a : Reg) (s : State) :
    exec (.vfabs g t d a) s = execVfabs g t d a s := rfl
theorem exec_vfneg (g : Guard) (t : FType) (d : Reg) (a : Reg) (s : State) :
    exec (.vfneg g t d a) s = execVfneg g t d a s := rfl
theorem exec_vfma (g : Guard) (t : FType) (d : Reg) (a : Reg) (b : Reg) (s : State) :
    exec (.vfma g t d a b) s = execVfma g t d a b s := rfl
theorem exec_vfms (g : Guard) (t : FType) (d : Reg) (a : Reg) (b : Reg) (s : State) :
    exec (.vfms g t d a b) s = execVfms g t d a b s := rfl
theorem exec_vfnma (g : Guard) (t : FType) (d : Reg) (a : Reg) (b : Reg) (s : State) :
    exec (.vfnma g t d a b) s = execVfnma g t d a b s := rfl
theorem exec_vfnms (g : Guard) (t : FType) (d : Reg) (a : Reg) (b : Reg) (s : State) :
    exec (.vfnms g t d a b) s = execVfnms g t d a b s := rfl
theorem exec_vcvt (g : Guard) (sr : Bool) (src : Fin 32) (dst : Fin 32) (d : Reg) (a : Reg) (s : State) :
    exec (.vcvt g sr src dst d a) s = execVcvt g sr src dst d a s := rfl
theorem exec_vcmp (g : Guard) (cc : VCc) (t : LType) (all : Bool) (pd : Reg8) (a : Reg) (b : Reg) (s : State) :
    exec (.vcmp g cc t all pd a b) s = execVcmp g cc t all pd a b s := rfl
theorem exec_vperm (g : Guard) (d : Reg) (a : Reg) (b : Reg) (s : State) :
    exec (.vperm g d a b) s = execVperm g d a b s := rfl
theorem exec_vbcast (g : Guard) (t : IType) (d : Reg) (a : Reg) (s : State) :
    exec (.vbcast g t d a) s = execVbcast g t d a s := rfl
theorem exec_vext (g : Guard) (t : IType) (d : Reg) (a : Reg) (b : Reg) (s : State) :
    exec (.vext g t d a b) s = execVext g t d a b s := rfl
theorem exec_vins (g : Guard) (t : IType) (d : Reg) (a : Reg) (b : Reg) (s : State) :
    exec (.vins g t d a b) s = execVins g t d a b s := rfl
theorem exec_vredSum (g : Guard) (t : LType) (d : Reg) (a : Reg) (s : State) :
    exec (.vredSum g t d a) s = execVredSum g t d a s := rfl
theorem exec_vredMin (g : Guard) (t : LType) (d : Reg) (a : Reg) (s : State) :
    exec (.vredMin g t d a) s = execVredMin g t d a s := rfl
theorem exec_vredMax (g : Guard) (t : LType) (d : Reg) (a : Reg) (s : State) :
    exec (.vredMax g t d a) s = execVredMax g t d a s := rfl
theorem exec_vld (g : Guard) (d : Reg) (a : Reg) (disp : BitVec 11) (s : State) :
    exec (.vld g d a disp) s = execVld g d a disp s := rfl
theorem exec_vst (g : Guard) (src : Reg) (a : Reg) (disp : BitVec 11) (s : State) :
    exec (.vst g src a disp) s = execVst g src a disp s := rfl
theorem exec_vldr (g : Guard) (d : Reg) (h : Handle) (side : RSide) (slot : BitVec 5) (off : BitVec 6) (s : State) :
    exec (.vldr g d h side slot off) s = execVldr g d h side slot off s := rfl
theorem exec_vstr (g : Guard) (src : Reg) (h : Handle) (side : RSide) (slot : BitVec 5) (off : BitVec 6) (s : State) :
    exec (.vstr g src h side slot off) s = execVstr g src h side slot off s := rfl
theorem exec_vmsum (g : Guard) (d : Reg) (a : Reg) (b : Reg) (s : State) :
    exec (.vmsum g d a b) s = execVmsum g d a b s := rfl
theorem exec_vrscl (g : Guard) (d : Reg) (a : Reg) (b : Reg) (s : State) :
    exec (.vrscl g d a b) s = execVrscl g d a b s := rfl
theorem exec_mm (g : Guard) (pair : Fin 22) (z : ZTile) (u : Bool) (la : Bool) (a : Reg) (b : Reg) (vs : Reg) (s : State) :
    exec (.mm g pair z u la a b vs) s = execMm g pair z u la a b vs s := rfl
theorem exec_mmr (g : Guard) (pair : Fin 22) (z : ZTile) (u : Bool) (b : Reg) (vs : Reg) (s : State) :
    exec (.mmr g pair z u b vs) s = execMmr g pair z u b vs s := rfl
theorem exec_latchA (g : Guard) (a : Reg) (s : State) : exec (.latchA g a) s = execLatchA g a s := rfl
theorem exec_latchB (g : Guard) (a : Reg) (s : State) : exec (.latchB g a) s = execLatchB g a s := rfl
theorem exec_zld (g : Guard) (z : ZTile) (a : Reg) (fmt : Fin 32) (s : State) :
    exec (.zld g z a fmt) s = execZld g z a fmt s := rfl
theorem exec_zst (g : Guard) (z : ZTile) (a : Reg) (fmt : Fin 32) (s : State) :
    exec (.zst g z a fmt) s = execZst g z a fmt s := rfl
theorem exec_zclr (g : Guard) (z : ZTile) (s : State) : exec (.zclr g z) s = execZclr g z s := rfl
theorem exec_spawn (g : Guard) (inl : Bool) (restart : Bool) (linked : Bool) (single : Bool) (d : Reg) (a : Reg) (b : Reg) (s : State) :
    exec (.spawn g inl restart linked single d a b) s = execSpawn g inl restart linked single d a b s := rfl
theorem exec_touch (g : Guard) (d : Reg) (a : Reg) (s : State) : exec (.touch g d a) s = execTouch g d a s := rfl
theorem exec_touchQ (g : Guard) (d : Reg) (a : Reg) (s : State) : exec (.touchQ g d a) s = execTouchQ g d a s := rfl
theorem exec_resolve (g : Guard) (d : Reg) (a : Reg) (b : Reg) (s : State) :
    exec (.resolve g d a b) s = execResolve g d a b s := rfl
theorem exec_poison (g : Guard) (d : Reg) (a : Reg) (b : Reg) (s : State) :
    exec (.poison g d a b) s = execPoison g d a b s := rfl
theorem exec_fcan (g : Guard) (d : Reg) (a : Reg) (s : State) : exec (.fcan g d a) s = execFcan g d a s := rfl
theorem exec_frel (g : Guard) (a : Reg) (s : State) : exec (.frel g a) s = execFrel g a s := rfl
theorem exec_ftest (g : Guard) (pd : Reg8) (a : Reg) (s : State) : exec (.ftest g pd a) s = execFtest g pd a s := rfl
theorem exec_fdec (g : Guard) (a : Reg) (s : State) : exec (.fdec g a) s = execFdec g a s := rfl
theorem exec_glaunch (g : Guard) (d : Reg) (a : Reg) (b : Reg) (s : State) :
    exec (.glaunch g d a b) s = execGlaunch g d a b s := rfl
theorem exec_yield (g : Guard) (s : State) : exec (.yield g) s = execYield g s := rfl
theorem exec_texit (g : Guard) (s : State) : exec (.texit g) s = execTexit g s := rfl
theorem exec_send (g : Guard) (d : Reg) (a : Reg) (b : Reg) (s : State) :
    exec (.send g d a b) s = execSend g d a b s := rfl
theorem exec_sendc (g : Guard) (d : Reg) (a : Reg) (s : State) : exec (.sendc g d a) s = execSendc g d a s := rfl
theorem exec_eng (g : Guard) (d : Reg) (a : Reg) (s : State) : exec (.eng g d a) s = execEng g d a s := rfl
theorem exec_rld (g : Guard) (w : Width) (d : Reg) (a : Reg) (s : State) :
    exec (.rld g w d a) s = execRld g w d a s := rfl
theorem exec_rldF (g : Guard) (w : Width) (d : Reg) (a : Reg) (s : State) :
    exec (.rldF g w d a) s = execRldF g w d a s := rfl
theorem exec_rst (g : Guard) (w : Width) (a : Reg) (b : Reg) (s : State) :
    exec (.rst g w a b) s = execRst g w a b s := rfl
theorem exec_trap (g : Guard) (hi : Fin 32) (lo : Fin 32) (s : State) :
    exec (.trap g hi lo) s = execTrap g hi lo s := rfl
theorem exec_ebreak (g : Guard) (s : State) : exec (.ebreak g) s = execEbreak g s := rfl
theorem exec_eret (g : Guard) (s : State) : exec (.eret g) s = execEret g s := rfl
theorem exec_csrr (g : Guard) (d : Reg) (hi : Fin 32) (lo : Fin 32) (s : State) :
    exec (.csrr g d hi lo) s = execCsrr g d hi lo s := rfl
theorem exec_csrw (g : Guard) (src : Reg) (hi : Fin 32) (lo : Fin 32) (s : State) :
    exec (.csrw g src hi lo) s = execCsrw g src hi lo s := rfl
theorem exec_sleep (g : Guard) (s : State) : exec (.sleep g) s = execSleep g s := rfl
theorem exec_cMov (d : Reg) (a : Reg) (s : State) : exec (.cMov d a) s = execCMov d a s := rfl
theorem exec_cAdd (d : Reg) (a : Reg) (s : State) : exec (.cAdd d a) s = execCAdd d a s := rfl
theorem exec_cSub (d : Reg) (a : Reg) (s : State) : exec (.cSub d a) s = execCSub d a s := rfl
theorem exec_cAnd (d : Reg) (a : Reg) (s : State) : exec (.cAnd d a) s = execCAnd d a s := rfl
theorem exec_cOr (d : Reg) (a : Reg) (s : State) : exec (.cOr d a) s = execCOr d a s := rfl
theorem exec_cXor (d : Reg) (a : Reg) (s : State) : exec (.cXor d a) s = execCXor d a s := rfl
theorem exec_cAddi (d : Reg) (imm : BitVec 6) (s : State) : exec (.cAddi d imm) s = execCAddi d imm s := rfl
theorem exec_cLi (d : Reg) (imm : BitVec 6) (s : State) : exec (.cLi d imm) s = execCLi d imm s := rfl
theorem exec_cSlli (d : Reg) (sh : BitVec 6) (s : State) : exec (.cSlli d sh) s = execCSlli d sh s := rfl
theorem exec_cSrli (d : Reg) (sh : BitVec 6) (s : State) : exec (.cSrli d sh) s = execCSrli d sh s := rfl
theorem exec_cLd (d : Reg) (a : Reg) (s : State) : exec (.cLd d a) s = execCLd d a s := rfl
theorem exec_cSt (src : Reg) (a : Reg) (s : State) : exec (.cSt src a) s = execCSt src a s := rfl
theorem exec_cBr (off : BitVec 11) (s : State) : exec (.cBr off) s = execCBr off s := rfl
theorem exec_cRet (s : State) : exec .cRet s = execCRet s := rfl
theorem exec_cTouch (d : Reg) (a : Reg) (s : State) : exec (.cTouch d a) s = execCTouch d a s := rfl
theorem exec_migrationArrival (n : Nat) (s : State) : exec (.migrationArrival n) s = execMigrationArrival n s := rfl
theorem exec_bind (t : Nat) (a : Nat) (s : State) : exec (.bind t a) s = execBind t a s := rfl
theorem exec_perform0 (t : Nat) (a : Nat) (s : State) : exec (.perform0 t a) s = execPerform0 t a s := rfl
theorem exec_performHome (t : Nat) (a : Nat) (s : State) : exec (.performHome t a) s = execPerformHome t a s := rfl
theorem exec_complete (t : Nat) (a : Nat) (s : State) : exec (.complete t a) s = execComplete t a s := rfl
theorem exec_forward (p : Nat) (e : Nat) (l : Nat) (s : State) : exec (.forward p e l) s = execForward p e l s := rfl
theorem exec_remove (p : Nat) (e : Nat) (l : Nat) (s : State) : exec (.remove p e l) s = execRemove p e l s := rfl
theorem exec_l1LineDrop (c : Nat) (p : Nat) (l : Nat) (s : State) :
    exec (.l1LineDrop c p l) s = execL1LineDrop c p l s := rfl
theorem exec_plbRefill (c : Nat) (dom : Nat) (va : Nat) (s : State) :
    exec (.plbRefill c dom va) s = execPlbRefill c dom va s := rfl
theorem exec_translationWalk (p : Nat) (e : Nat) (va : Nat) (s : State) :
    exec (.translationWalk p e va) s = execTranslationWalk p e va s := rfl
theorem exec_atomicUnitOperation (t : Nat) (a : Nat) (s : State) :
    exec (.atomicUnitOperation t a) s = execAtomicUnitOperation t a s := rfl
theorem exec_hostWriteToCachedLine (p : Nat) (iova : Nat) (data : List Byte) (s : State) :
    exec (.hostWriteToCachedLine p iova data) s = execHostWriteToCachedLine p iova data s := rfl
theorem exec_trapEntry (t : Nat) (s : State) : exec (.trapEntry t) s = execTrapEntry t s := rfl
theorem exec_acklost (t : Nat) (a : Nat) (s : State) : exec (.acklost t a) s = execAcklost t a s := rfl
theorem exec_preempt (t : Nat) (s : State) : exec (.preempt t) s = execPreempt t s := rfl
theorem exec_taskPreemption (cl : Nat) (s : State) : exec (.taskPreemption cl) s = execTaskPreemption cl s := rfl
theorem exec_sleepTimeout (t : Nat) (s : State) : exec (.sleepTimeout t) s = execSleepTimeout t s := rfl
theorem exec_sleepDepthDescent (c : Nat) (s : State) :
    exec (.sleepDepthDescent c) s = execSleepDepthDescent c s := rfl
theorem exec_coreWake (c : Nat) (s : State) : exec (.coreWake c) s = execCoreWake c s := rfl
theorem exec_barrierArrival (t : Nat) (s : State) : exec (.barrierArrival t) s = execBarrierArrival t s := rfl
theorem exec_barrierCompletion (t : Nat) (s : State) :
    exec (.barrierCompletion t) s = execBarrierCompletion t s := rfl
theorem exec_barrierTimeout (t : Nat) (s : State) : exec (.barrierTimeout t) s = execBarrierTimeout t s := rfl
theorem exec_barrierWithdrawal (t : Nat) (s : State) :
    exec (.barrierWithdrawal t) s = execBarrierWithdrawal t s := rfl
theorem exec_latchCompletion (c : Nat) (latch : Bool) (s : State) :
    exec (.latchCompletion c latch) s = execLatchCompletion c latch s := rfl
theorem exec_matrixUnitCompletion (c : Nat) (s : State) :
    exec (.matrixUnitCompletion c) s = execMatrixUnitCompletion c s := rfl
theorem exec_pass (c : Nat) (south : Bool) (s : State) : exec (.pass c south) s = execPass c south s := rfl
theorem exec_messageReceipt (c : Nat) (s : State) : exec (.messageReceipt c) s = execMessageReceipt c s := rfl
theorem exec_handlerStart (c : Nat) (s : State) : exec (.handlerStart c) s = execHandlerStart c s := rfl
theorem exec_injectionQueueDrain (c : Nat) (s : State) :
    exec (.injectionQueueDrain c) s = execInjectionQueueDrain c s := rfl
theorem exec_dispatch (cl : Nat) (s : State) : exec (.dispatch cl) s = execDispatch cl s := rfl
theorem exec_frameAllocation (cl : Nat) (s : State) : exec (.frameAllocation cl) s = execFrameAllocation cl s := rfl
theorem exec_tileFetchCompletion (cl : Nat) (tk : Nat) (s : State) :
    exec (.tileFetchCompletion cl tk) s = execTileFetchCompletion cl tk s := rfl
theorem exec_runQueueAgeing (cl : Nat) (n : Nat) (s : State) :
    exec (.runQueueAgeing cl n) s = execRunQueueAgeing cl n s := rfl
theorem exec_workSteal (cl : Nat) (s : State) : exec (.workSteal cl) s = execWorkSteal cl s := rfl
theorem exec_futureSpill (cl : Nat) (s : State) : exec (.futureSpill cl) s = execFutureSpill cl s := rfl
theorem exec_futureOperation (cl : Nat) (k : Option Packet) (s : State) :
    exec (.futureOperation cl k) s = execFutureOperation cl k s := rfl
theorem exec_futureAnswerOrWake (n : Nat) (k : Option Packet) (s : State) :
    exec (.futureAnswerOrWake n k) s = execFutureAnswerOrWake n k s := rfl
theorem exec_cancelNotice (cl : Nat) (s : State) : exec (.cancelNotice cl) s = execCancelNotice cl s := rfl
theorem exec_exhaustionDetector (cl : Nat) (s : State) :
    exec (.exhaustionDetector cl) s = execExhaustionDetector cl s := rfl
theorem exec_freeResourceReport (cl : Nat) (s : State) :
    exec (.freeResourceReport cl) s = execFreeResourceReport cl s := rfl
theorem exec_launchRecordRead (p : Nat) (q : Nat) (s : State) :
    exec (.launchRecordRead p q) s = execLaunchRecordRead p q s := rfl
theorem exec_queueMapping (s : State) : exec .queueMapping s = execQueueMapping s := rfl
theorem exec_recordAcceptance (s : State) : exec .recordAcceptance s = execRecordAcceptance s := rfl
theorem exec_sourcePriorityAgeing (src : Nat) (s : State) :
    exec (.sourcePriorityAgeing src) s = execSourcePriorityAgeing src s := rfl
theorem exec_supervisorMove (p : Nat) (s : State) : exec (.supervisorMove p) s = execSupervisorMove p s := rfl
theorem exec_gangStart (n : Nat) (s : State) : exec (.gangStart n) s = execGangStart n s := rfl
theorem exec_completionNotice (s : State) : exec .completionNotice s = execCompletionNotice s := rfl
theorem exec_gangPreemption (src : Nat) (s : State) : exec (.gangPreemption src) s = execGangPreemption src s := rfl
theorem exec_copy (x : EngineStep) (s : State) : exec (.copy x) s = execCopy x s := rfl
theorem exec_copyr (x : EngineStep) (s : State) : exec (.copyr x) s = execCopyr x s := rfl
theorem exec_gather (n : Nat) (e : Nat) (s : State) : exec (.gather n e) s = execGather n e s := rfl
theorem exec_addv (n : Nat) (s : State) : exec (.addv n) s = execAddv n s := rfl
theorem exec_allgather (x : EngineStep) (s : State) : exec (.allgather x) s = execAllgather x s := rfl
theorem exec_allreduce (x : EngineStep) (s : State) : exec (.allreduce x) s = execAllreduce x s := rfl
theorem exec_cut (n : Nat) (s : State) : exec (.cut n) s = execCut n s := rfl
theorem exec_engineCommandCompletion (n : Nat) (s : State) :
    exec (.engineCommandCompletion n) s = execEngineCommandCompletion n s := rfl
theorem exec_stippleTimeout (n : Nat) (s : State) : exec (.stippleTimeout n) s = execStippleTimeout n s := rfl
theorem exec_copyOnWrite (p : Nat) (gr : Nat) (s : State) : exec (.copyOnWrite p gr) s = execCopyOnWrite p gr s := rfl
theorem exec_backgroundDrain (p : Nat) (s : State) : exec (.backgroundDrain p) s = execBackgroundDrain p s := rfl
theorem exec_cutTimeout (p : Nat) (s : State) : exec (.cutTimeout p) s = execCutTimeout p s := rfl
theorem exec_activeMessage (k : Packet) (s : State) : exec (.activeMessage k) s = execActiveMessage k s := rfl
theorem exec_codeCarryingMessage (k : Packet) (s : State) :
    exec (.codeCarryingMessage k) s = execCodeCarryingMessage k s := rfl
theorem exec_readRequest (k : Packet) (s : State) : exec (.readRequest k) s = execReadRequest k s := rfl
theorem exec_readReply (k : Packet) (s : State) : exec (.readReply k) s = execReadReply k s := rfl
theorem exec_write (k : Packet) (s : State) : exec (.write k) s = execWrite k s := rfl
theorem exec_writeAcknowledgement (k : Packet) (s : State) :
    exec (.writeAcknowledgement k) s = execWriteAcknowledgement k s := rfl
theorem exec_atomic (k : Packet) (s : State) : exec (.atomic k) s = execAtomic k s := rfl
theorem exec_atomicReply (k : Packet) (s : State) : exec (.atomicReply k) s = execAtomicReply k s := rfl
theorem exec_collectiveData (k : Packet) (s : State) : exec (.collectiveData k) s = execCollectiveData k s := rfl
theorem exec_stippleBlock (k : Packet) (s : State) : exec (.stippleBlock k) s = execStippleBlock k s := rfl
theorem exec_errorReply (k : Packet) (s : State) : exec (.errorReply k) s = execErrorReply k s := rfl
theorem exec_partitionFence (k : Packet) (s : State) : exec (.partitionFence k) s = execPartitionFence k s := rfl
theorem exec_management (k : Packet) (s : State) : exec (.management k) s = execManagement k s := rfl
theorem exec_flitReceipt (port : Nat) (f : Flit) (s : State) :
    exec (.flitReceipt port f) s = execFlitReceipt port f s := rfl
theorem exec_replay (port : Nat) (seq : Nat) (s : State) : exec (.replay port seq) s = execReplay port seq s := rfl
theorem exec_portRetrain (port : Nat) (found : PortUp) (s : State) :
    exec (.portRetrain port found) s = execPortRetrain port found s := rfl
theorem exec_portDown (port : Nat) (s : State) : exec (.portDown port) s = execPortDown port s := rfl
theorem exec_keyRollover (port : Nat) (key : List Byte) (s : State) :
    exec (.keyRollover port key) s = execKeyRollover port key s := rfl
theorem exec_lqNotify (p : Nat) (q : Nat) (v : Nat) (s : State) :
    exec (.lqNotify p q v) s = execLqNotify p q v s := rfl
theorem exec_lqCfgWrite (p : Nat) (q : Nat) (v : Nat) (s : State) :
    exec (.lqCfgWrite p q v) s = execLqCfgWrite p q v s := rfl
theorem exec_lqBaseWrite (p : Nat) (q : Nat) (v : Nat) (s : State) :
    exec (.lqBaseWrite p q v) s = execLqBaseWrite p q v s := rfl
theorem exec_lqDomWrite (p : Nat) (q : Nat) (v : Nat) (s : State) :
    exec (.lqDomWrite p q v) s = execLqDomWrite p q v s := rfl
theorem exec_errclr (p : Nat) (v : Nat) (s : State) : exec (.errclr p v) s = execErrclr p v s := rfl
theorem exec_plbinv (p : Nat) (v : Nat) (s : State) : exec (.plbinv p v) s = execPlbinv p v s := rfl
theorem exec_s1inv (p : Nat) (v : Nat) (s : State) : exec (.s1inv p v) s = execS1inv p v s := rfl
theorem exec_tsareaWrite (cl : Nat) (v : Nat) (s : State) : exec (.tsareaWrite cl v) s = execTsareaWrite cl v s := rfl
theorem exec_ringEnable (cl : Nat) (n : Nat) (v : Nat) (s : State) :
    exec (.ringEnable cl n v) s = execRingEnable cl n v s := rfl
theorem exec_ringDisable (cl : Nat) (n : Nat) (v : Nat) (s : State) :
    exec (.ringDisable cl n v) s = execRingDisable cl n v s := rfl
theorem exec_corecfgWrite (c : Nat) (v : Nat) (s : State) : exec (.corecfgWrite c v) s = execCorecfgWrite c v s := rfl
theorem exec_clssplitChange (c : Nat) (s : State) : exec (.clssplitChange c) s = execClssplitChange c s := rfl
theorem exec_mxownChange (c : Nat) (s : State) : exec (.mxownChange c) s = execMxownChange c s := rfl
theorem exec_h3Change (c : Nat) (s : State) : exec (.h3Change c) s = execH3Change c s := rfl
theorem exec_srstateWrite (c : Nat) (v : Nat) (s : State) : exec (.srstateWrite c v) s = execSrstateWrite c v s := rfl
theorem exec_fstatWrite (t : Nat) (v : Nat) (s : State) : exec (.fstatWrite t v) s = execFstatWrite t v s := rfl
theorem exec_hdomFdomWrite (p : Nat) (fabric : Bool) (v : Nat) (s : State) :
    exec (.hdomFdomWrite p fabric v) s = execHdomFdomWrite p fabric v s := rfl
theorem exec_fspillbaseWrite (cl : Nat) (v : Nat) (s : State) :
    exec (.fspillbaseWrite cl v) s = execFspillbaseWrite cl v s := rfl
theorem exec_registerWrite (p : Nat) (cl : Nat) (csr : Nat) (v : Nat) (s : State) :
    exec (.registerWrite p cl csr v) s = execRegisterWrite p cl csr v s := rfl
theorem exec_coreKill (c : Nat) (s : State) : exec (.coreKill c) s = execCoreKill c s := rfl
theorem exec_selfTestCompletion (c : Nat) (pass : Bool) (s : State) :
    exec (.selfTestCompletion c pass) s = execSelfTestCompletion c pass s := rfl
theorem exec_channelTest (gr : Nat) (failing : List Nat) (s : State) :
    exec (.channelTest gr failing) s = execChannelTest gr failing s := rfl
theorem exec_mcheckDelivery (p : Nat) (s : State) : exec (.mcheckDelivery p) s = execMcheckDelivery p s := rfl
theorem exec_supervisorRelaunch (p : Nat) (s : State) :
    exec (.supervisorRelaunch p) s = execSupervisorRelaunch p s := rfl
theorem exec_patrolScrubber (found : HardwareError) (s : State) :
    exec (.patrolScrubber found) s = execPatrolScrubber found s := rfl
theorem exec_ageingMonitorCheck (cl : Nat) (first second : Nat × Nat) (s : State) :
    exec (.ageingMonitorCheck cl first second) s = execAgeingMonitorCheck cl first second s := rfl
theorem exec_throttle (celsius : Nat) (watts : Nat) (s : State) :
    exec (.throttle celsius watts) s = execThrottle celsius watts s := rfl
theorem exec_warmReset (cause : ResetCause) (s : State) : exec (.warmReset cause) s = execWarmReset cause s := rfl
theorem exec_coldReset (fuses : Fuses) (image : List Byte) (up : List PortUp) (s : State) :
    exec (.coldReset fuses image up) s = execColdReset fuses image up s := rfl
theorem exec_retrainingRequest (up : List PortUp) (s : State) :
    exec (.retrainingRequest up) s = execRetrainingRequest up s := rfl
theorem exec_partitionCreation (sp : PartSpec) (s : State) :
    exec (.partitionCreation sp) s = execPartitionCreation sp s := rfl
theorem exec_teardown (p : Nat) (s : State) : exec (.teardown p) s = execTeardown p s := rfl
theorem exec_spdmRequest (q : Requester) (r : SpdmAsk) (s : State) :
    exec (.spdmRequest q r) s = execSpdmRequest q r s := rfl
theorem exec_imageSubmission (p : Nat) (image : List Byte) (s : State) :
    exec (.imageSubmission p image) s = execImageSubmission p image s := rfl
theorem exec_restoreRequest (p : Nat) (r : Restore) (s : State) :
    exec (.restoreRequest p r) s = execRestoreRequest p r s := rfl
theorem exec_tdispRequest (p : Nat) (run : Bool) (s : State) :
    exec (.tdispRequest p run) s = execTdispRequest p run s := rfl
theorem exec_tdispErrorEntry (p : Nat) (s : State) : exec (.tdispErrorEntry p) s = execTdispErrorEntry p s := rfl
theorem exec_stopInterfaceRequest (p : Nat) (s : State) :
    exec (.stopInterfaceRequest p) s = execStopInterfaceRequest p s := rfl
theorem exec_dieToDieLinkFailure (gr : Option Nat) (s : State) :
    exec (.dieToDieLinkFailure gr) s = execDieToDieLinkFailure gr s := rfl
theorem exec_linkDown (port : Nat) (s : State) : exec (.linkDown port) s = execLinkDown port s := rfl
theorem exec_arbitrationGrant (port : Nat) (s : State) :
    exec (.arbitrationGrant port) s = execArbitrationGrant port s := rfl

end Sys2Proof.Laws
end

