-- ==== Sys2Proof/Laws/Encoding.lean ====
section
/-!
SUPPORT. Facts about the byte order, the field split and the layers of the decoder, shared by every proof about encodings.
-/

namespace Sys2Proof.Laws

theorem leNat_leBytes (n v : Nat) : leNat (leBytes n v) = v % 256 ^ n := by
  induction n generalizing v with
  | zero => simp [leBytes, leNat, Nat.mod_one]
  | succ n ih =>
    have hm : v % (256 * 256 ^ n) = v % 256 + 256 * (v / 256 % 256 ^ n) := Nat.mod_mul
    rw [pow_succ' 256 n, hm, leBytes, leNat, ih, BitVec.toNat_ofNat]

theorem length_leBytes (n v : Nat) : (leBytes n v).length = n := by
  induction n generalizing v with
  | zero => rfl
  | succ n ih => simp [leBytes, ih]

theorem pack_lt (x : Fields) : x.pack < 2 ^ 32 := by
  obtain ⟨f, b, a, d, n, q, m⟩ := x
  simp only [Fields.pack]
  omega

theorem pack_odd (x : Fields) : x.pack % 2 = 1 := by
  obtain ⟨f, b, a, d, n, q, m⟩ := x
  simp only [Fields.pack]
  omega

theorem unpack_pack (x : Fields) : Fields.unpack x.pack = x := by
  obtain ⟨f, b, a, d, n, q, m⟩ := x
  simp only [Fields.pack, Fields.unpack, Fields.mk.injEq, Fin.ext_iff, Fin.ofNat]
  refine ⟨?_, ?_, ?_, ?_, ?_, ?_, ?_⟩ <;> omega

/-- The guard that `Fields.of` lays out is read back. -/
theorem guard_of (g : Guard) (maj f b a d : Nat) : (Fields.of g maj f b a d).guard = g := by
  obtain ⟨n, p⟩ := g
  cases n <;> simp [Fields.of, Fields.guard, bit, Fin.ofNat]

theorem guard_ofImm (g : Guard) (maj imm a d : Nat) : (Fields.ofImm g maj imm a d).guard = g := guard_of ..

/-- The decoder on a first halfword whose bit 0 is 1. -/
theorem decode_word (b0 b1 b2 b3 : Byte) (rest : List Byte) (h : leNat [b0, b1] % 2 = 1) :
    decode (b0 :: b1 :: b2 :: b3 :: rest) =
      match decode32 (leNat [b0, b1, b2, b3]) with
      | some i => .ok (i, 4)
      | none => .error (.notAnInstruction 4 (leNat [b0, b1, b2, b3])) := by
  have h' : ¬ leNat [b0, b1] % 2 = 0 := by omega
  unfold decode
  simp only [h', if_false] <;> (cases decode32 (leNat [b0, b1, b2, b3]) <;> rfl)

/-- The decoder on a first halfword whose bit 0 is 0. -/
theorem decode_halfword (b0 b1 : Byte) (rest : List Byte) (h : leNat [b0, b1] % 2 = 0) :
    decode (b0 :: b1 :: rest) =
      match decode16 (leNat [b0, b1]) with
      | some i => .ok (i, 2)
      | none => .error (.notAnInstruction 2 (leNat [b0, b1])) := by
  unfold decode
  simp only [h, if_true] <;> (cases decode16 (leNat [b0, b1]) <;> rfl)

theorem decode32_pack {i : Instr} {x : Fields} (hm : decodeMaj x = some i) (hw : i.wf = true) :
    decode32 x.pack = some i := by
  rw [decode32, unpack_pack, hm, Option.bind_some, if_pos hw]

/-- A 32-bit instruction is read back when the opcode map reads its fields back. -/
theorem decode_fields {i : Instr} {x : Fields} (hx : i.fields = some x) (hm : decodeMaj x = some i) (hw : i.wf = true)
    (rest : List Byte) : decode (encode i ++ rest) = .ok (i, 4) := by
  have h4 : leNat (leBytes 4 x.pack) = x.pack := by
    rw [leNat_leBytes]; exact Nat.mod_eq_of_lt (pack_lt x)
  have ho := pack_odd x
  have h2 : leNat [BitVec.ofNat 8 x.pack, BitVec.ofNat 8 (x.pack / 256)] % 2 = 1 := by
    simp only [leNat, BitVec.toNat_ofNat]; omega
  have hs : encode i = leBytes 4 x.pack := by rw [encode, hx]
  rw [hs]
  refine (decode_word _ _ _ _ rest h2).trans ?_
  rw [leBytes, leBytes, leBytes, leBytes, leBytes] at h4
  rw [h4, decode32_pack hm hw]

/-- A 16-bit instruction is read back when its halfword is. -/
theorem decode_half {i : Instr} {h : Nat} (hx : i.fields = none) (hh : i.half = some h) (hlt : h < 2 ^ 16)
    (he : h % 2 = 0) (hm : decode16 h = some i) (rest : List Byte) : decode (encode i ++ rest) = .ok (i, 2) := by
  have h4 : leNat (leBytes 2 h) = h := by
    rw [leNat_leBytes]; exact Nat.mod_eq_of_lt hlt
  rw [leBytes, leBytes, leBytes] at h4
  have hs : encode i = leBytes 2 h := by rw [encode, hx]; simp only [hh]
  rw [hs]
  refine (decode_halfword _ _ rest (h4.symm ▸ he)).trans ?_
  rw [h4, hm]

end Sys2Proof.Laws
end

