-- ==== Sys2Proof/Laws/Issue.lean ====
section
/-!
SUPPORT. What the issue of an instruction can do (spec/18 R386), said once: under a false guard, while it waits, when a
check fails, and when its body runs.
-/

namespace Sys2Proof.Laws

open Sys2Proof.Machine Sys2Proof.Safety

variable {i : Instr} {s : State} {th : Thread} {skip : State → Thread → State} {body : State → Thread → Res}

theorem issueSkip_empty (h : s.thread s.cur = none) : issueSkip i s skip body = .next s := by
  simp [issueSkip, h]

theorem issueSkip_false (h : s.thread s.cur = some th) (hg : th.guardTrue i.guard = false) :
    issueSkip i s skip body = .next (skip s th) := by
  simp [issueSkip, h, hg]

/-- An instruction that executes normally has the effect of its body. -/
theorem issueSkip_body (h : Issues i s th) :
    issueSkip i s skip body =
      match body s th with
      | .done s => .next s
      | .trap cause info info2 =>
        .next (s.takeTrap s.cur th ⟨cause, info, info2, th.pc.toNat, th.pc.toNat, false, false, false, none⟩)
      | .trapIn s1 cause info info2 =>
        if !th.deferred.isEmpty then .next (s.takeDeferred s.cur th)
        else if !th.settled then .next (s.settleStep s.cur)
        else .next (s1.takeTrap s.cur th ⟨cause, info, info2, th.pc.toNat, th.pc.toNat, false, false, false, none⟩)
      | .trapAfter cause info info2 =>
        .next (s.takeTrap s.cur th ⟨cause, info, info2, th.pc.toNat, th.pc.toNat, false, false, true, none⟩)
      | .settle => .next (s.settleStep s.cur)
      | .deliver => .next (s.takeDeferred s.cur th) := by
  obtain ⟨h1, h2, h3, h4, h5, h6, h7, h8, h9⟩ := h
  simp only [usesAt] at h3 h4 h5 h6 h7 h8 h9
  have hp : ((usesOf i s.pkg.node (coreOfKey s.cur) th).priv && !th.supervisor) = false := by
    cases hu : (usesOf i s.pkg.node (coreOfKey s.cur) th).priv
    · rfl
    · simp [h8 hu]
  have hm : ((usesOf i s.pkg.node (coreOfKey s.cur) th).mx
      && s.cur % 4 != (s.core (coreOfKey s.cur)).mxNow) = false := by
    cases hu : (usesOf i s.pkg.node (coreOfKey s.cur) th).mx
    · rfl
    · simp [h9 hu]
  simp only [issueSkip, h1, h2, h3, h4, h5, h6, h7, hp, hm]
  cases body s th <;> rfl

theorem issueSkip_done {s' : State} (h : Issues i s th) (hb : body s th = .done s') :
    issueSkip i s skip body = .next s' := by rw [issueSkip_body h, hb]

theorem issue_done {s' : State} (h : Issues i s th) (hb : body s th = .done s') : issue i s body = .next s' :=
  issueSkip_done h hb

theorem issue_thenNext {f : Thread → Thread} (h : Issues i s th) :
    issue i s (thenNext i f) = .next (s.setThread s.cur ((f th).next i.len)) := issue_done h rfl

theorem issue_trap {cause : Cause} {info info2 : Word} (h : Issues i s th) (hb : body s th = .trap cause info info2) :
    issue i s body =
      .next (s.takeTrap s.cur th ⟨cause, info, info2, th.pc.toNat, th.pc.toNat, false, false, false, none⟩) := by
  rw [issue, issueSkip_body h, hb]

/-- The issue of an instruction always answers a next state. -/
theorem issueSkip_next : ∃ s', issueSkip i s skip body = .next s' := by
  unfold issueSkip
  dsimp only
  repeat' (first | exact ⟨_, rfl⟩ | split)

end Sys2Proof.Laws
end

