-- ==== Sys2Proof/Laws/State.lean ====
section
/-!
SUPPORT. The state's updates, said once: what is read back after each, and every field that it leaves alone.
-/

namespace Sys2Proof.Laws

open Sys2Proof.Machine

/-! ## Maps -/

theorem find_erase_same {α : Type} (m : Map α) (k : Nat) : (m.erase k).find k = none := by
  induction m with
  | nil => rfl
  | cons e rest ih =>
    obtain ⟨j, v⟩ := e
    by_cases h : j = k
    · subst h
      simpa [Map.erase, Map.find] using ih
    · simpa [Map.erase, Map.find, h] using ih

theorem find_erase_ne {α : Type} (m : Map α) {k n : Nat} (h : n ≠ k) : (m.erase k).find n = m.find n := by
  induction m with
  | nil => rfl
  | cons e rest ih =>
    obtain ⟨j, v⟩ := e
    by_cases hj : j = k
    · subst hj
      have hn : ¬ j = n := fun hh => h hh.symm
      simpa [Map.erase, Map.find, hn] using ih
    · by_cases hn : j = n
      · subst hn
        simp [Map.erase, Map.find, hj]
      · simpa [Map.erase, Map.find, hj, hn] using ih

@[simp] theorem find_put_same {α : Type} (m : Map α) (k : Nat) (v : α) : (m.put k v).find k = some v := by
  simp [Map.put, Map.find]

theorem find_put_ne {α : Type} (m : Map α) {k n : Nat} (v : α) (h : n ≠ k) : (m.put k v).find n = m.find n := by
  have hn : ¬ k = n := fun hh => h hh.symm
  simp [Map.put, Map.find, hn, find_erase_ne m h]

/-! ## State.setThread -/

@[simp] theorem setThread_cur (s : State) (t : Nat) (th : Thread) : (s.setThread t th).cur = s.cur := rfl
@[simp] theorem setThread_schedule (s : State) (t : Nat) (th : Thread) : (s.setThread t th).schedule = s.schedule := rfl
@[simp] theorem setThread_free (s : State) (t : Nat) (th : Thread) : (s.setThread t th).free = s.free := rfl
@[simp] theorem setThread_now (s : State) (t : Nat) (th : Thread) : (s.setThread t th).now = s.now := rfl
@[simp] theorem setThread_mem (s : State) (t : Nat) (th : Thread) : (s.setThread t th).mem = s.mem := rfl
@[simp] theorem setThread_poison (s : State) (t : Nat) (th : Thread) : (s.setThread t th).poison = s.poison := rfl
@[simp] theorem setThread_touched (s : State) (t : Nat) (th : Thread) : (s.setThread t th).touched = s.touched := rfl
@[simp] theorem setThread_cores (s : State) (t : Nat) (th : Thread) : (s.setThread t th).cores = s.cores := rfl
@[simp] theorem setThread_clusters (s : State) (t : Nat) (th : Thread) : (s.setThread t th).clusters = s.clusters := rfl
@[simp] theorem setThread_parts (s : State) (t : Nat) (th : Thread) : (s.setThread t th).parts = s.parts := rfl
@[simp] theorem setThread_barriers (s : State) (t : Nat) (th : Thread) : (s.setThread t th).barriers = s.barriers := rfl
@[simp] theorem setThread_gangs (s : State) (t : Nat) (th : Thread) : (s.setThread t th).gangs = s.gangs := rfl
@[simp] theorem setThread_nextGang (s : State) (t : Nat) (th : Thread) : (s.setThread t th).nextGang = s.nextGang := rfl
@[simp] theorem setThread_dist (s : State) (t : Nat) (th : Thread) : (s.setThread t th).dist = s.dist := rfl
@[simp] theorem setThread_commands (s : State) (t : Nat) (th : Thread) : (s.setThread t th).commands = s.commands := rfl
@[simp] theorem setThread_nextCommand (s : State) (t : Nat) (th : Thread) : (s.setThread t th).nextCommand = s.nextCommand := rfl
@[simp] theorem setThread_wakes (s : State) (t : Nat) (th : Thread) : (s.setThread t th).wakes = s.wakes := rfl
@[simp] theorem setThread_transit (s : State) (t : Nat) (th : Thread) : (s.setThread t th).transit = s.transit := rfl
@[simp] theorem setThread_outstanding (s : State) (t : Nat) (th : Thread) : (s.setThread t th).outstanding = s.outstanding := rfl
@[simp] theorem setThread_homeOps (s : State) (t : Nat) (th : Thread) : (s.setThread t th).homeOps = s.homeOps := rfl
@[simp] theorem setThread_outbox (s : State) (t : Nat) (th : Thread) : (s.setThread t th).outbox = s.outbox := rfl
@[simp] theorem setThread_pkg (s : State) (t : Nat) (th : Thread) : (s.setThread t th).pkg = s.pkg := rfl

/-! ## State.setCore -/

@[simp] theorem setCore_cur (s : State) (c : Nat) (k : Core) : (s.setCore c k).cur = s.cur := rfl
@[simp] theorem setCore_schedule (s : State) (c : Nat) (k : Core) : (s.setCore c k).schedule = s.schedule := rfl
@[simp] theorem setCore_free (s : State) (c : Nat) (k : Core) : (s.setCore c k).free = s.free := rfl
@[simp] theorem setCore_now (s : State) (c : Nat) (k : Core) : (s.setCore c k).now = s.now := rfl
@[simp] theorem setCore_mem (s : State) (c : Nat) (k : Core) : (s.setCore c k).mem = s.mem := rfl
@[simp] theorem setCore_poison (s : State) (c : Nat) (k : Core) : (s.setCore c k).poison = s.poison := rfl
@[simp] theorem setCore_touched (s : State) (c : Nat) (k : Core) : (s.setCore c k).touched = s.touched := rfl
@[simp] theorem setCore_threads (s : State) (c : Nat) (k : Core) : (s.setCore c k).threads = s.threads := rfl
@[simp] theorem setCore_clusters (s : State) (c : Nat) (k : Core) : (s.setCore c k).clusters = s.clusters := rfl
@[simp] theorem setCore_parts (s : State) (c : Nat) (k : Core) : (s.setCore c k).parts = s.parts := rfl
@[simp] theorem setCore_barriers (s : State) (c : Nat) (k : Core) : (s.setCore c k).barriers = s.barriers := rfl
@[simp] theorem setCore_gangs (s : State) (c : Nat) (k : Core) : (s.setCore c k).gangs = s.gangs := rfl
@[simp] theorem setCore_nextGang (s : State) (c : Nat) (k : Core) : (s.setCore c k).nextGang = s.nextGang := rfl
@[simp] theorem setCore_dist (s : State) (c : Nat) (k : Core) : (s.setCore c k).dist = s.dist := rfl
@[simp] theorem setCore_commands (s : State) (c : Nat) (k : Core) : (s.setCore c k).commands = s.commands := rfl
@[simp] theorem setCore_nextCommand (s : State) (c : Nat) (k : Core) : (s.setCore c k).nextCommand = s.nextCommand := rfl
@[simp] theorem setCore_wakes (s : State) (c : Nat) (k : Core) : (s.setCore c k).wakes = s.wakes := rfl
@[simp] theorem setCore_transit (s : State) (c : Nat) (k : Core) : (s.setCore c k).transit = s.transit := rfl
@[simp] theorem setCore_outstanding (s : State) (c : Nat) (k : Core) : (s.setCore c k).outstanding = s.outstanding := rfl
@[simp] theorem setCore_homeOps (s : State) (c : Nat) (k : Core) : (s.setCore c k).homeOps = s.homeOps := rfl
@[simp] theorem setCore_outbox (s : State) (c : Nat) (k : Core) : (s.setCore c k).outbox = s.outbox := rfl
@[simp] theorem setCore_pkg (s : State) (c : Nat) (k : Core) : (s.setCore c k).pkg = s.pkg := rfl

/-! ## State.setCluster -/

@[simp] theorem setCluster_cur (s : State) (cl : Nat) (k : Cluster) : (s.setCluster cl k).cur = s.cur := rfl
@[simp] theorem setCluster_schedule (s : State) (cl : Nat) (k : Cluster) : (s.setCluster cl k).schedule = s.schedule := rfl
@[simp] theorem setCluster_free (s : State) (cl : Nat) (k : Cluster) : (s.setCluster cl k).free = s.free := rfl
@[simp] theorem setCluster_now (s : State) (cl : Nat) (k : Cluster) : (s.setCluster cl k).now = s.now := rfl
@[simp] theorem setCluster_mem (s : State) (cl : Nat) (k : Cluster) : (s.setCluster cl k).mem = s.mem := rfl
@[simp] theorem setCluster_poison (s : State) (cl : Nat) (k : Cluster) : (s.setCluster cl k).poison = s.poison := rfl
@[simp] theorem setCluster_touched (s : State) (cl : Nat) (k : Cluster) : (s.setCluster cl k).touched = s.touched := rfl
@[simp] theorem setCluster_threads (s : State) (cl : Nat) (k : Cluster) : (s.setCluster cl k).threads = s.threads := rfl
@[simp] theorem setCluster_cores (s : State) (cl : Nat) (k : Cluster) : (s.setCluster cl k).cores = s.cores := rfl
@[simp] theorem setCluster_parts (s : State) (cl : Nat) (k : Cluster) : (s.setCluster cl k).parts = s.parts := rfl
@[simp] theorem setCluster_barriers (s : State) (cl : Nat) (k : Cluster) : (s.setCluster cl k).barriers = s.barriers := rfl
@[simp] theorem setCluster_gangs (s : State) (cl : Nat) (k : Cluster) : (s.setCluster cl k).gangs = s.gangs := rfl
@[simp] theorem setCluster_nextGang (s : State) (cl : Nat) (k : Cluster) : (s.setCluster cl k).nextGang = s.nextGang := rfl
@[simp] theorem setCluster_dist (s : State) (cl : Nat) (k : Cluster) : (s.setCluster cl k).dist = s.dist := rfl
@[simp] theorem setCluster_commands (s : State) (cl : Nat) (k : Cluster) : (s.setCluster cl k).commands = s.commands := rfl
@[simp] theorem setCluster_nextCommand (s : State) (cl : Nat) (k : Cluster) : (s.setCluster cl k).nextCommand = s.nextCommand := rfl
@[simp] theorem setCluster_wakes (s : State) (cl : Nat) (k : Cluster) : (s.setCluster cl k).wakes = s.wakes := rfl
@[simp] theorem setCluster_transit (s : State) (cl : Nat) (k : Cluster) : (s.setCluster cl k).transit = s.transit := rfl
@[simp] theorem setCluster_outstanding (s : State) (cl : Nat) (k : Cluster) : (s.setCluster cl k).outstanding = s.outstanding := rfl
@[simp] theorem setCluster_homeOps (s : State) (cl : Nat) (k : Cluster) : (s.setCluster cl k).homeOps = s.homeOps := rfl
@[simp] theorem setCluster_outbox (s : State) (cl : Nat) (k : Cluster) : (s.setCluster cl k).outbox = s.outbox := rfl
@[simp] theorem setCluster_pkg (s : State) (cl : Nat) (k : Cluster) : (s.setCluster cl k).pkg = s.pkg := rfl

/-! ## State.setPart -/

@[simp] theorem setPart_cur (s : State) (p : Nat) (k : Part) : (s.setPart p k).cur = s.cur := rfl
@[simp] theorem setPart_schedule (s : State) (p : Nat) (k : Part) : (s.setPart p k).schedule = s.schedule := rfl
@[simp] theorem setPart_free (s : State) (p : Nat) (k : Part) : (s.setPart p k).free = s.free := rfl
@[simp] theorem setPart_now (s : State) (p : Nat) (k : Part) : (s.setPart p k).now = s.now := rfl
@[simp] theorem setPart_mem (s : State) (p : Nat) (k : Part) : (s.setPart p k).mem = s.mem := rfl
@[simp] theorem setPart_poison (s : State) (p : Nat) (k : Part) : (s.setPart p k).poison = s.poison := rfl
@[simp] theorem setPart_touched (s : State) (p : Nat) (k : Part) : (s.setPart p k).touched = s.touched := rfl
@[simp] theorem setPart_threads (s : State) (p : Nat) (k : Part) : (s.setPart p k).threads = s.threads := rfl
@[simp] theorem setPart_cores (s : State) (p : Nat) (k : Part) : (s.setPart p k).cores = s.cores := rfl
@[simp] theorem setPart_clusters (s : State) (p : Nat) (k : Part) : (s.setPart p k).clusters = s.clusters := rfl
@[simp] theorem setPart_barriers (s : State) (p : Nat) (k : Part) : (s.setPart p k).barriers = s.barriers := rfl
@[simp] theorem setPart_gangs (s : State) (p : Nat) (k : Part) : (s.setPart p k).gangs = s.gangs := rfl
@[simp] theorem setPart_nextGang (s : State) (p : Nat) (k : Part) : (s.setPart p k).nextGang = s.nextGang := rfl
@[simp] theorem setPart_dist (s : State) (p : Nat) (k : Part) : (s.setPart p k).dist = s.dist := rfl
@[simp] theorem setPart_commands (s : State) (p : Nat) (k : Part) : (s.setPart p k).commands = s.commands := rfl
@[simp] theorem setPart_nextCommand (s : State) (p : Nat) (k : Part) : (s.setPart p k).nextCommand = s.nextCommand := rfl
@[simp] theorem setPart_wakes (s : State) (p : Nat) (k : Part) : (s.setPart p k).wakes = s.wakes := rfl
@[simp] theorem setPart_transit (s : State) (p : Nat) (k : Part) : (s.setPart p k).transit = s.transit := rfl
@[simp] theorem setPart_outstanding (s : State) (p : Nat) (k : Part) : (s.setPart p k).outstanding = s.outstanding := rfl
@[simp] theorem setPart_homeOps (s : State) (p : Nat) (k : Part) : (s.setPart p k).homeOps = s.homeOps := rfl
@[simp] theorem setPart_outbox (s : State) (p : Nat) (k : Part) : (s.setPart p k).outbox = s.outbox := rfl
@[simp] theorem setPart_pkg (s : State) (p : Nat) (k : Part) : (s.setPart p k).pkg = s.pkg := rfl

/-! ## State.storeWord -/

@[simp] theorem storeWord_cur (s : State) (a : Nat) (w : Word) : (s.storeWord a w).cur = s.cur := rfl
@[simp] theorem storeWord_schedule (s : State) (a : Nat) (w : Word) : (s.storeWord a w).schedule = s.schedule := rfl
@[simp] theorem storeWord_free (s : State) (a : Nat) (w : Word) : (s.storeWord a w).free = s.free := rfl
@[simp] theorem storeWord_now (s : State) (a : Nat) (w : Word) : (s.storeWord a w).now = s.now := rfl
@[simp] theorem storeWord_threads (s : State) (a : Nat) (w : Word) : (s.storeWord a w).threads = s.threads := rfl
@[simp] theorem storeWord_cores (s : State) (a : Nat) (w : Word) : (s.storeWord a w).cores = s.cores := rfl
@[simp] theorem storeWord_clusters (s : State) (a : Nat) (w : Word) : (s.storeWord a w).clusters = s.clusters := rfl
@[simp] theorem storeWord_parts (s : State) (a : Nat) (w : Word) : (s.storeWord a w).parts = s.parts := rfl
@[simp] theorem storeWord_barriers (s : State) (a : Nat) (w : Word) : (s.storeWord a w).barriers = s.barriers := rfl
@[simp] theorem storeWord_gangs (s : State) (a : Nat) (w : Word) : (s.storeWord a w).gangs = s.gangs := rfl
@[simp] theorem storeWord_nextGang (s : State) (a : Nat) (w : Word) : (s.storeWord a w).nextGang = s.nextGang := rfl
@[simp] theorem storeWord_dist (s : State) (a : Nat) (w : Word) : (s.storeWord a w).dist = s.dist := rfl
@[simp] theorem storeWord_commands (s : State) (a : Nat) (w : Word) : (s.storeWord a w).commands = s.commands := rfl
@[simp] theorem storeWord_nextCommand (s : State) (a : Nat) (w : Word) : (s.storeWord a w).nextCommand = s.nextCommand := rfl
@[simp] theorem storeWord_wakes (s : State) (a : Nat) (w : Word) : (s.storeWord a w).wakes = s.wakes := rfl
@[simp] theorem storeWord_transit (s : State) (a : Nat) (w : Word) : (s.storeWord a w).transit = s.transit := rfl
@[simp] theorem storeWord_outstanding (s : State) (a : Nat) (w : Word) : (s.storeWord a w).outstanding = s.outstanding := rfl
@[simp] theorem storeWord_homeOps (s : State) (a : Nat) (w : Word) : (s.storeWord a w).homeOps = s.homeOps := rfl
@[simp] theorem storeWord_outbox (s : State) (a : Nat) (w : Word) : (s.storeWord a w).outbox = s.outbox := rfl
@[simp] theorem storeWord_pkg (s : State) (a : Nat) (w : Word) : (s.storeWord a w).pkg = s.pkg := rfl

/-! ## State.store -/

@[simp] theorem store_cur (s : State) (a : Nat) (bs : List Byte) : (s.store a bs).cur = s.cur := rfl
@[simp] theorem store_schedule (s : State) (a : Nat) (bs : List Byte) : (s.store a bs).schedule = s.schedule := rfl
@[simp] theorem store_free (s : State) (a : Nat) (bs : List Byte) : (s.store a bs).free = s.free := rfl
@[simp] theorem store_now (s : State) (a : Nat) (bs : List Byte) : (s.store a bs).now = s.now := rfl
@[simp] theorem store_threads (s : State) (a : Nat) (bs : List Byte) : (s.store a bs).threads = s.threads := rfl
@[simp] theorem store_cores (s : State) (a : Nat) (bs : List Byte) : (s.store a bs).cores = s.cores := rfl
@[simp] theorem store_clusters (s : State) (a : Nat) (bs : List Byte) : (s.store a bs).clusters = s.clusters := rfl
@[simp] theorem store_parts (s : State) (a : Nat) (bs : List Byte) : (s.store a bs).parts = s.parts := rfl
@[simp] theorem store_barriers (s : State) (a : Nat) (bs : List Byte) : (s.store a bs).barriers = s.barriers := rfl
@[simp] theorem store_gangs (s : State) (a : Nat) (bs : List Byte) : (s.store a bs).gangs = s.gangs := rfl
@[simp] theorem store_nextGang (s : State) (a : Nat) (bs : List Byte) : (s.store a bs).nextGang = s.nextGang := rfl
@[simp] theorem store_dist (s : State) (a : Nat) (bs : List Byte) : (s.store a bs).dist = s.dist := rfl
@[simp] theorem store_commands (s : State) (a : Nat) (bs : List Byte) : (s.store a bs).commands = s.commands := rfl
@[simp] theorem store_nextCommand (s : State) (a : Nat) (bs : List Byte) : (s.store a bs).nextCommand = s.nextCommand := rfl
@[simp] theorem store_wakes (s : State) (a : Nat) (bs : List Byte) : (s.store a bs).wakes = s.wakes := rfl
@[simp] theorem store_transit (s : State) (a : Nat) (bs : List Byte) : (s.store a bs).transit = s.transit := rfl
@[simp] theorem store_outstanding (s : State) (a : Nat) (bs : List Byte) : (s.store a bs).outstanding = s.outstanding := rfl
@[simp] theorem store_homeOps (s : State) (a : Nat) (bs : List Byte) : (s.store a bs).homeOps = s.homeOps := rfl
@[simp] theorem store_outbox (s : State) (a : Nat) (bs : List Byte) : (s.store a bs).outbox = s.outbox := rfl
@[simp] theorem store_pkg (s : State) (a : Nat) (bs : List Byte) : (s.store a bs).pkg = s.pkg := rfl

/-! ## State.post -/

@[simp] theorem post_cur (s : State) (f : Word) (op : FutOp) : (s.post f op).cur = s.cur := rfl
@[simp] theorem post_schedule (s : State) (f : Word) (op : FutOp) : (s.post f op).schedule = s.schedule := rfl
@[simp] theorem post_free (s : State) (f : Word) (op : FutOp) : (s.post f op).free = s.free := rfl
@[simp] theorem post_now (s : State) (f : Word) (op : FutOp) : (s.post f op).now = s.now := rfl
@[simp] theorem post_mem (s : State) (f : Word) (op : FutOp) : (s.post f op).mem = s.mem := rfl
@[simp] theorem post_poison (s : State) (f : Word) (op : FutOp) : (s.post f op).poison = s.poison := rfl
@[simp] theorem post_touched (s : State) (f : Word) (op : FutOp) : (s.post f op).touched = s.touched := rfl
@[simp] theorem post_threads (s : State) (f : Word) (op : FutOp) : (s.post f op).threads = s.threads := rfl
@[simp] theorem post_cores (s : State) (f : Word) (op : FutOp) : (s.post f op).cores = s.cores := rfl
@[simp] theorem post_parts (s : State) (f : Word) (op : FutOp) : (s.post f op).parts = s.parts := rfl
@[simp] theorem post_barriers (s : State) (f : Word) (op : FutOp) : (s.post f op).barriers = s.barriers := rfl
@[simp] theorem post_gangs (s : State) (f : Word) (op : FutOp) : (s.post f op).gangs = s.gangs := rfl
@[simp] theorem post_nextGang (s : State) (f : Word) (op : FutOp) : (s.post f op).nextGang = s.nextGang := rfl
@[simp] theorem post_dist (s : State) (f : Word) (op : FutOp) : (s.post f op).dist = s.dist := rfl
@[simp] theorem post_commands (s : State) (f : Word) (op : FutOp) : (s.post f op).commands = s.commands := rfl
@[simp] theorem post_nextCommand (s : State) (f : Word) (op : FutOp) : (s.post f op).nextCommand = s.nextCommand := rfl
@[simp] theorem post_wakes (s : State) (f : Word) (op : FutOp) : (s.post f op).wakes = s.wakes := rfl
@[simp] theorem post_transit (s : State) (f : Word) (op : FutOp) : (s.post f op).transit = s.transit := rfl
@[simp] theorem post_outstanding (s : State) (f : Word) (op : FutOp) : (s.post f op).outstanding = s.outstanding := rfl
@[simp] theorem post_homeOps (s : State) (f : Word) (op : FutOp) : (s.post f op).homeOps = s.homeOps := rfl
@[simp] theorem post_outbox (s : State) (f : Word) (op : FutOp) : (s.post f op).outbox = s.outbox := rfl
@[simp] theorem post_pkg (s : State) (f : Word) (op : FutOp) : (s.post f op).pkg = s.pkg := rfl

/-! ## State.count -/

@[simp] theorem count_cur (s : State) (p n : Nat) : (s.count p n).cur = s.cur := rfl
@[simp] theorem count_schedule (s : State) (p n : Nat) : (s.count p n).schedule = s.schedule := rfl
@[simp] theorem count_free (s : State) (p n : Nat) : (s.count p n).free = s.free := rfl
@[simp] theorem count_now (s : State) (p n : Nat) : (s.count p n).now = s.now := rfl
@[simp] theorem count_mem (s : State) (p n : Nat) : (s.count p n).mem = s.mem := rfl
@[simp] theorem count_poison (s : State) (p n : Nat) : (s.count p n).poison = s.poison := rfl
@[simp] theorem count_touched (s : State) (p n : Nat) : (s.count p n).touched = s.touched := rfl
@[simp] theorem count_threads (s : State) (p n : Nat) : (s.count p n).threads = s.threads := rfl
@[simp] theorem count_cores (s : State) (p n : Nat) : (s.count p n).cores = s.cores := rfl
@[simp] theorem count_clusters (s : State) (p n : Nat) : (s.count p n).clusters = s.clusters := rfl
@[simp] theorem count_barriers (s : State) (p n : Nat) : (s.count p n).barriers = s.barriers := rfl
@[simp] theorem count_gangs (s : State) (p n : Nat) : (s.count p n).gangs = s.gangs := rfl
@[simp] theorem count_nextGang (s : State) (p n : Nat) : (s.count p n).nextGang = s.nextGang := rfl
@[simp] theorem count_dist (s : State) (p n : Nat) : (s.count p n).dist = s.dist := rfl
@[simp] theorem count_commands (s : State) (p n : Nat) : (s.count p n).commands = s.commands := rfl
@[simp] theorem count_nextCommand (s : State) (p n : Nat) : (s.count p n).nextCommand = s.nextCommand := rfl
@[simp] theorem count_wakes (s : State) (p n : Nat) : (s.count p n).wakes = s.wakes := rfl
@[simp] theorem count_transit (s : State) (p n : Nat) : (s.count p n).transit = s.transit := rfl
@[simp] theorem count_outstanding (s : State) (p n : Nat) : (s.count p n).outstanding = s.outstanding := rfl
@[simp] theorem count_homeOps (s : State) (p n : Nat) : (s.count p n).homeOps = s.homeOps := rfl
@[simp] theorem count_outbox (s : State) (p n : Nat) : (s.count p n).outbox = s.outbox := rfl
@[simp] theorem count_pkg (s : State) (p n : Nat) : (s.count p n).pkg = s.pkg := rfl

/-! ## What an update's own reader gives -/

@[simp] theorem thread_setThread (s : State) (t : Nat) (th : Thread) : (s.setThread t th).thread t = some th := by
  simp [State.thread, State.setThread]

theorem thread_setThread_ne (s : State) {t n : Nat} (th : Thread) (h : n ≠ t) :
    (s.setThread t th).thread n = s.thread n := find_put_ne _ _ h

@[simp] theorem thread_setCore (s : State) (c : Nat) (k : Core) (t : Nat) : (s.setCore c k).thread t = s.thread t := rfl
@[simp] theorem thread_setCluster (s : State) (cl : Nat) (k : Cluster) (t : Nat) :
    (s.setCluster cl k).thread t = s.thread t := rfl
@[simp] theorem thread_setPart (s : State) (p : Nat) (k : Part) (t : Nat) : (s.setPart p k).thread t = s.thread t := rfl
@[simp] theorem thread_store (s : State) (a : Nat) (bs : List Byte) (t : Nat) : (s.store a bs).thread t = s.thread t := rfl

@[simp] theorem core_setCore (s : State) (c : Nat) (k : Core) : (s.setCore c k).core c = k := by
  simp [State.core, State.setCore]

theorem core_setCore_ne (s : State) {c n : Nat} (k : Core) (h : n ≠ c) : (s.setCore c k).core n = s.core n := by
  simp only [State.core, State.setCore, find_put_ne _ _ h]

@[simp] theorem core_setThread (s : State) (t : Nat) (th : Thread) (c : Nat) : (s.setThread t th).core c = s.core c := rfl
@[simp] theorem core_setCluster (s : State) (cl : Nat) (k : Cluster) (c : Nat) : (s.setCluster cl k).core c = s.core c := rfl
@[simp] theorem core_setPart (s : State) (p : Nat) (k : Part) (c : Nat) : (s.setPart p k).core c = s.core c := rfl

@[simp] theorem cluster_setCluster (s : State) (cl : Nat) (k : Cluster) : (s.setCluster cl k).cluster cl = k := by
  simp [State.cluster, State.setCluster]

theorem cluster_setCluster_ne (s : State) {cl n : Nat} (k : Cluster) (h : n ≠ cl) :
    (s.setCluster cl k).cluster n = s.cluster n := by
  simp only [State.cluster, State.setCluster, find_put_ne _ _ h]

@[simp] theorem cluster_setThread (s : State) (t : Nat) (th : Thread) (cl : Nat) :
    (s.setThread t th).cluster cl = s.cluster cl := rfl
@[simp] theorem cluster_setCore (s : State) (c : Nat) (k : Core) (cl : Nat) : (s.setCore c k).cluster cl = s.cluster cl := rfl
@[simp] theorem cluster_setPart (s : State) (p : Nat) (k : Part) (cl : Nat) : (s.setPart p k).cluster cl = s.cluster cl := rfl

@[simp] theorem part_setPart (s : State) (p : Nat) (k : Part) : (s.setPart p k).part p = k := by
  simp [State.part, State.setPart]

theorem part_setPart_ne (s : State) {p n : Nat} (k : Part) (h : n ≠ p) : (s.setPart p k).part n = s.part n := by
  simp only [State.part, State.setPart, find_put_ne _ _ h]

@[simp] theorem part_setThread (s : State) (t : Nat) (th : Thread) (p : Nat) : (s.setThread t th).part p = s.part p := rfl
@[simp] theorem part_setCore (s : State) (c : Nat) (k : Core) (p : Nat) : (s.setCore c k).part p = s.part p := rfl
@[simp] theorem part_setCluster (s : State) (cl : Nat) (k : Cluster) (p : Nat) : (s.setCluster cl k).part p = s.part p := rfl

/-! ## Registers of a thread -/

@[simp] theorem getX_zero (th : Thread) : th.getX 0 = 0 := rfl

theorem getX_setX (th : Thread) (r : Reg) (w : Word) (b : Bool) (h : r ≠ 0) : (th.setX r w b).getX r = w := by
  simp [Thread.getX, Thread.setX, h]

theorem getX_setX_ne (th : Thread) (r n : Reg) (w : Word) (b : Bool) (h : n ≠ r) : (th.setX r w b).getX n = th.getX n := by
  unfold Thread.setX
  split
  · rfl
  · have hv : r.val ≠ n.val := fun hh => h (Fin.ext hh.symm)
    simp [Thread.getX, hv]

@[simp] theorem setX_pc (th : Thread) (r : Reg) (w : Word) (b : Bool) : (th.setX r w b).pc = th.pc := by
  unfold Thread.setX; split <;> rfl
@[simp] theorem setX_wait (th : Thread) (r : Reg) (w : Word) (b : Bool) : (th.setX r w b).wait = th.wait := by
  unfold Thread.setX; split <;> rfl
@[simp] theorem setX_acc (th : Thread) (r : Reg) (w : Word) (b : Bool) : (th.setX r w b).acc = th.acc := by
  unfold Thread.setX; split <;> rfl
@[simp] theorem setX_p (th : Thread) (r : Reg) (w : Word) (b : Bool) : (th.setX r w b).p = th.p := by
  unfold Thread.setX; split <;> rfl
@[simp] theorem setX_v (th : Thread) (r : Reg) (w : Word) (b : Bool) : (th.setX r w b).v = th.v := by
  unfold Thread.setX; split <;> rfl

end Sys2Proof.Laws
end

