-- ==== Sys2Proof/Laws/Memory.lean ====
section
/-!
SUPPORT. Memory: every operation keeps the canonical form (Memory.wf), a read after a write gives what was written, and a
write leaves every other byte alone.
-/

namespace Sys2Proof.Laws

open Sys2Proof.Machine

/-- The canonical form as a list property: addresses rise, no byte is zero. -/
theorem wf_iff (m : Memory) : m.wf = true ↔ m.Pairwise (fun c d => c.1 < d.1) ∧ ∀ c ∈ m, c.2 ≠ 0 := by
  induction m with
  | nil => simp [Memory.wf]
  | cons c rest ih =>
    cases rest with
    | nil => simp [Memory.wf]
    | cons d rest =>
      simp only [Memory.wf, Bool.and_eq_true, bne_iff_ne, decide_eq_true_eq, ih]
      constructor
      · rintro ⟨⟨hz, hlt⟩, hp, hn⟩
        refine ⟨List.pairwise_cons.2 ⟨?_, hp⟩, ?_⟩
        · intro e he
          rcases List.mem_cons.1 he with rfl | he
          · exact hlt
          · exact lt_trans hlt ((List.pairwise_cons.1 hp).1 e he)
        · intro e he
          rcases List.mem_cons.1 he with rfl | he
          · exact hz
          · exact hn e he
      · rintro ⟨hp, hn⟩
        obtain ⟨h1, h2⟩ := List.pairwise_cons.1 hp
        exact ⟨⟨hn c (by simp), h1 d (by simp)⟩, h2, fun e he => hn e (by simp [he])⟩

theorem reset_wf : State.reset.mem.wf = true := rfl

theorem filter_wf (m : Memory) (p : Host.Cell → Bool) (h : m.wf = true) : Memory.wf (m.filter p) = true := by
  rw [wf_iff] at h ⊢
  exact ⟨h.1.filter p, fun c hc => h.2 c (List.mem_filter.1 hc).1⟩

theorem cellsOf_cons (a : Nat) (v : Byte) (vs : List Byte) :
    cellsOf a (v :: vs) = if v = 0 then cellsOf (a + 1) vs else (a, v) :: cellsOf (a + 1) vs := rfl

theorem mem_cellsOf (a : Nat) (bs : List Byte) : ∀ c ∈ cellsOf a bs, a ≤ c.1 ∧ c.1 < a + bs.length ∧ c.2 ≠ 0 := by
  induction bs generalizing a with
  | nil => simp [cellsOf]
  | cons v vs ih =>
    intro c hc
    simp only [List.length_cons]
    unfold cellsOf at hc
    split at hc
    · obtain ⟨h1, h2, h3⟩ := ih (a + 1) c hc
      exact ⟨by omega, by omega, h3⟩
    · rename_i hv
      rcases List.mem_cons.1 hc with rfl | hc
      · exact ⟨le_refl _, by simp, hv⟩
      · obtain ⟨h1, h2, h3⟩ := ih (a + 1) c hc
        exact ⟨by omega, by omega, h3⟩

theorem cellsOf_pairwise (a : Nat) (bs : List Byte) : (cellsOf a bs).Pairwise (fun c d => c.1 < d.1) := by
  induction bs generalizing a with
  | nil => simp [cellsOf]
  | cons v vs ih =>
    unfold cellsOf
    split
    · exact ih _
    · refine List.pairwise_cons.2 ⟨fun c hc => ?_, ih _⟩
      have := (mem_cellsOf (a + 1) vs c hc).1
      exact Nat.lt_of_lt_of_le (Nat.lt_succ_self a) this

/-- A write keeps the canonical form. -/
theorem write_wf (m : Memory) (a : Nat) (bs : List Byte) (h : m.wf = true) : (m.write a bs).wf = true := by
  rw [wf_iff] at h ⊢
  obtain ⟨hp, hn⟩ := h
  unfold Memory.write
  refine ⟨?_, ?_⟩
  · rw [List.pairwise_append, List.pairwise_append]
    refine ⟨⟨hp.filter _, cellsOf_pairwise a bs, ?_⟩, hp.filter _, ?_⟩
    · intro c hc d hd
      have h1 := of_decide_eq_true (List.mem_filter.1 hc).2
      have h2 := (mem_cellsOf a bs d hd).1
      omega
    · intro c hc d hd
      have h2 := of_decide_eq_true (List.mem_filter.1 hd).2
      rcases List.mem_append.1 hc with hc | hc
      · have h1 := of_decide_eq_true (List.mem_filter.1 hc).2
        omega
      · have h1 := (mem_cellsOf a bs c hc).2.1
        omega
  · intro c hc
    rcases List.mem_append.1 hc with hc | hc
    · rcases List.mem_append.1 hc with hc | hc
      · exact hn c (List.mem_filter.1 hc).1
      · exact (mem_cellsOf a bs c hc).2.2
    · exact hn c (List.mem_filter.1 hc).1

theorem read_append (m n : Memory) (x : Nat) (h : ∀ c ∈ m, c.1 ≠ x) : Memory.read (m ++ n) x = Memory.read n x := by
  induction m with
  | nil => rfl
  | cons c rest ih =>
    obtain ⟨b, v⟩ := c
    have hb : ¬ b = x := h (b, v) (by simp)
    simp only [List.cons_append, Memory.read, hb, if_false]
    exact ih fun c hc => h c (by simp [hc])

theorem read_filter (m : Memory) (p : Nat → Bool) (x : Nat) :
    Memory.read (m.filter fun c => p c.1) x = if p x then m.read x else 0 := by
  induction m with
  | nil => simp [Memory.read]
  | cons c rest ih =>
    obtain ⟨b, v⟩ := c
    by_cases hb : b = x
    · subst hb
      cases hp : p b <;> simp [Memory.read, hp, ih]
    · cases hp : p b <;> simp [Memory.read, hp, hb, ih]

theorem read_cellsOf (a : Nat) (bs : List Byte) (n : Memory) (x : Nat) :
    Memory.read (cellsOf a bs ++ n) x =
      if a ≤ x ∧ x < a + bs.length ∧ bs[x - a]? ≠ some 0 then (bs[x - a]?).getD 0 else Memory.read n x := by
  induction bs generalizing a with
  | nil =>
    have : ¬ (a ≤ x ∧ x < a + 0) := by omega
    simp [cellsOf]
  | cons v vs ih =>
    by_cases hx : a = x
    · subst hx
      rw [cellsOf_cons]
      split
      · rename_i hv
        rw [ih]
        have : ¬ (a + 1 ≤ a ∧ a < a + 1 + vs.length ∧ vs[a - (a + 1)]? ≠ some 0) := by omega
        simp [hv]
      · rename_i hv
        have hb : (v :: vs)[a - a]? ≠ some 0 := by simpa using hv
        rw [if_pos ⟨le_refl _, by simp, hb⟩]
        simp [Memory.read]
    · have key : Memory.read (cellsOf a (v :: vs) ++ n) x = Memory.read (cellsOf (a + 1) vs ++ n) x := by
        rw [cellsOf_cons]
        split
        · rfl
        · simp [Memory.read, hx]
      rw [key, ih]
      by_cases hle : a + 1 ≤ x
      · have hs : x - a = (x - (a + 1)) + 1 := by omega
        have hi : (v :: vs)[x - a]? = vs[x - (a + 1)]? := by rw [hs]; rfl
        rw [hi]
        have e1 : (a + 1 ≤ x ∧ x < a + 1 + vs.length ∧ vs[x - (a + 1)]? ≠ some 0) ↔
            (a ≤ x ∧ x < a + (v :: vs).length ∧ vs[x - (a + 1)]? ≠ some 0) := by
          simp only [List.length_cons]
          constructor <;> rintro ⟨h1, h2, h3⟩ <;> exact ⟨by omega, by omega, h3⟩
        simp only [e1]
      · have h1 : ¬ (a + 1 ≤ x ∧ x < a + 1 + vs.length ∧ vs[x - (a + 1)]? ≠ some 0) := fun h => hle h.1
        have h2 : ¬ (a ≤ x ∧ x < a + (v :: vs).length ∧ (v :: vs)[x - a]? ≠ some 0) := fun h => by omega
        rw [if_neg h1, if_neg h2]

/-- The byte at an address after a write: the byte written there, or the old one. -/
theorem read_write (m : Memory) (a : Nat) (bs : List Byte) (x : Nat) :
    (m.write a bs).read x = if a ≤ x ∧ x < a + bs.length then (bs[x - a]?).getD 0 else m.read x := by
  have h1 := read_filter m (fun b => decide (b < a)) x
  have h2 := read_filter m (fun b => decide (a + bs.length ≤ b)) x
  unfold Memory.write
  by_cases hlt : x < a
  · have hin : ¬ (a ≤ x ∧ x < a + bs.length) := by omega
    rw [if_neg hin, List.append_assoc]
    have hout : Memory.read (cellsOf a bs ++ m.filter fun c => decide (a + bs.length ≤ c.1)) x = 0 := by
      rw [read_cellsOf, if_neg (by omega), h2]; simp; omega
    have gen : ∀ l n : Memory, Memory.read n x = 0 → Memory.read (l ++ n) x = Memory.read l x := by
      intro l n hn
      induction l with
      | nil => simpa [Memory.read] using hn
      | cons c rest ih => obtain ⟨b, v⟩ := c; simp [Memory.read, ih]
    rw [gen _ _ hout, h1]
    simp [hlt]
  · have hne : ∀ c ∈ m.filter (fun c => decide (c.1 < a)), c.1 ≠ x := by
      intro c hc
      have := of_decide_eq_true (List.mem_filter.1 hc).2
      omega
    rw [List.append_assoc, read_append _ _ _ hne, read_cellsOf, h2]
    by_cases hin : x < a + bs.length
    · have hi : a ≤ x ∧ x < a + bs.length := by omega
      rw [if_pos hi]
      by_cases hb : bs[x - a]? = some 0
      · simp [hb]; omega
      · rw [if_pos ⟨hi.1, hi.2, hb⟩]
    · have hi : ¬ (a ≤ x ∧ x < a + bs.length) := by omega
      have hj : ¬ (a ≤ x ∧ x < a + bs.length ∧ bs[x - a]? ≠ some 0) := fun h => hi ⟨h.1, h.2.1⟩
      rw [if_neg hi, if_neg hj]
      simp; omega

theorem readBytes_length (m : Memory) (a n : Nat) : (m.readBytes a n).length = n := by
  induction n generalizing a with
  | zero => rfl
  | succ n ih => simp [Memory.readBytes, ih]

theorem readBytes_get (m : Memory) (a n i : Nat) (h : i < n) : (m.readBytes a n)[i]? = some (m.read (a + i)) := by
  induction n generalizing a i with
  | zero => omega
  | succ n ih =>
    cases i with
    | zero => rfl
    | succ i =>
      have := ih (a + 1) i (by omega)
      simpa [Memory.readBytes, Nat.add_assoc, Nat.add_comm 1] using this

/-- Bytes read back where they were written. -/
theorem load_store (s : State) (a : Nat) (bs : List Byte) : (s.store a bs).load a bs.length = bs := by
  apply List.ext_getElem?
  intro i
  by_cases h : i < bs.length
  · rw [State.load, readBytes_get _ _ _ _ h]
    show some ((s.mem.write a bs).read (a + i)) = _
    rw [read_write, if_pos ⟨by omega, by omega⟩]
    have : a + i - a = i := by omega
    rw [this, List.getElem?_eq_getElem h]; rfl
  · rw [List.getElem?_eq_none (by rw [State.load, readBytes_length]; omega), List.getElem?_eq_none (by omega)]

/-- A store keeps the canonical form and every byte outside it. -/
theorem store_mem (s : State) (a : Nat) (bs : List Byte) :
    (s.mem.wf = true → (s.store a bs).mem.wf = true) ∧
    ∀ x, (x < a ∨ a + bs.length ≤ x) → (s.store a bs).mem.read x = s.mem.read x := by
  refine ⟨fun h => write_wf _ _ _ h, fun x hx => ?_⟩
  show (s.mem.write a bs).read x = _
  rw [read_write, if_neg (by omega)]

/-- Undefined contents keep the canonical form and every byte outside them. -/
theorem scramble_mem (s : State) (a n : Nat) :
    (s.mem.wf = true → (s.scramble a n).mem.wf = true) ∧
    ∀ x, (x < a ∨ a + n ≤ x) → (s.scramble a n).mem.read x = s.mem.read x := by
  unfold State.scramble
  split
  · exact ⟨id, fun _ _ => rfl⟩
  · refine ⟨fun h => write_wf _ _ _ h, fun x hx => ?_⟩
    simp only [State.store]
    rw [read_write, if_neg]
    simp [State.load, readBytes_length]; omega

/-- Clearing places keeps the canonical form; a cleared place reads zero, any other as before. -/
theorem clearPlaces_mem (s : State) (gone : Nat → Bool) :
    (s.mem.wf = true → (s.clearPlaces gone).mem.wf = true) ∧
    ∀ x, (s.clearPlaces gone).mem.read x = if gone x then 0 else s.mem.read x := by
  refine ⟨fun h => filter_wf _ _ h, fun x => ?_⟩
  have := read_filter s.mem (fun b => !gone b) x
  simp only [State.clearPlaces]
  rw [this]
  cases gone x <;> rfl

end Sys2Proof.Laws
end

