-- ==== Sys2Proof/Laws/PerInstr.lean ====
section
/-!
SUPPORT. Statements about every instruction as syntax, one lemma for each: an encoding has the length of its form.
-/

namespace Sys2Proof.Laws

/-- The bytes of an instruction word are as many as its form has (spec/07 R168, R171). -/
def Length.Statement (i : Instr) : Prop := i.isWord = true → (encode i).length = i.len

theorem Length.add (g : Guard) (d a b : Reg) : Length.Statement (.add g d a b) := fun _ => rfl
theorem Length.sub (g : Guard) (d a b : Reg) : Length.Statement (.sub g d a b) := fun _ => rfl
theorem Length.and (g : Guard) (d a b : Reg) : Length.Statement (.and g d a b) := fun _ => rfl
theorem Length.or (g : Guard) (d a b : Reg) : Length.Statement (.or g d a b) := fun _ => rfl
theorem Length.xor (g : Guard) (d a b : Reg) : Length.Statement (.xor g d a b) := fun _ => rfl
theorem Length.andn (g : Guard) (d a b : Reg) : Length.Statement (.andn g d a b) := fun _ => rfl
theorem Length.sll (g : Guard) (d a b : Reg) : Length.Statement (.sll g d a b) := fun _ => rfl
theorem Length.srl (g : Guard) (d a b : Reg) : Length.Statement (.srl g d a b) := fun _ => rfl
theorem Length.sra (g : Guard) (d a b : Reg) : Length.Statement (.sra g d a b) := fun _ => rfl
theorem Length.rol (g : Guard) (d a b : Reg) : Length.Statement (.rol g d a b) := fun _ => rfl
theorem Length.min (g : Guard) (d a b : Reg) : Length.Statement (.min g d a b) := fun _ => rfl
theorem Length.max (g : Guard) (d a b : Reg) : Length.Statement (.max g d a b) := fun _ => rfl
theorem Length.minu (g : Guard) (d a b : Reg) : Length.Statement (.minu g d a b) := fun _ => rfl
theorem Length.maxu (g : Guard) (d a b : Reg) : Length.Statement (.maxu g d a b) := fun _ => rfl
theorem Length.mul (g : Guard) (d a b : Reg) : Length.Statement (.mul g d a b) := fun _ => rfl
theorem Length.mulh (g : Guard) (d a b : Reg) : Length.Statement (.mulh g d a b) := fun _ => rfl
theorem Length.mulhu (g : Guard) (d a b : Reg) : Length.Statement (.mulhu g d a b) := fun _ => rfl
theorem Length.div (g : Guard) (d a b : Reg) : Length.Statement (.div g d a b) := fun _ => rfl
theorem Length.divu (g : Guard) (d a b : Reg) : Length.Statement (.divu g d a b) := fun _ => rfl
theorem Length.rem (g : Guard) (d a b : Reg) : Length.Statement (.rem g d a b) := fun _ => rfl
theorem Length.remu (g : Guard) (d a b : Reg) : Length.Statement (.remu g d a b) := fun _ => rfl
theorem Length.clz (g : Guard) (d a : Reg) : Length.Statement (.clz g d a) := fun _ => rfl
theorem Length.ctz (g : Guard) (d a : Reg) : Length.Statement (.ctz g d a) := fun _ => rfl
theorem Length.popc (g : Guard) (d a : Reg) : Length.Statement (.popc g d a) := fun _ => rfl
theorem Length.adx (g : Guard) (sh : Fin 5) (d a b : Reg) : Length.Statement (.adx g sh d a b) := fun _ => rfl
theorem Length.cmp (g : Guard) (cc : Cc) (pd : Reg8) (a b : Reg) : Length.Statement (.cmp g cc pd a b) :=
  fun _ => rfl
theorem Length.cmpiSigned (g : Guard) (cc : CcS) (pd : Reg8) (a : Reg) (imm : BitVec 11) : Length.Statement (.cmpiSigned g cc pd a imm) :=
  fun _ => rfl
theorem Length.cmpiUnsigned (g : Guard) (cc : CcU) (pd : Reg8) (a : Reg) (imm : BitVec 11) : Length.Statement (.cmpiUnsigned g cc pd a imm) :=
  fun _ => rfl
theorem Length.madd (g : Guard) (e : Reg8) (d a b : Reg) : Length.Statement (.madd g e d a b) := fun _ => rfl
theorem Length.msub (g : Guard) (e : Reg8) (d a b : Reg) : Length.Statement (.msub g e d a b) := fun _ => rfl
theorem Length.bfx (g : Guard) (e : Reg8) (d a b : Reg) : Length.Statement (.bfx g e d a b) := fun _ => rfl
theorem Length.bfi (g : Guard) (e : Reg8) (d a b : Reg) : Length.Statement (.bfi g e d a b) := fun _ => rfl
theorem Length.addi (g : Guard) (d a : Reg) (imm : BitVec 11) : Length.Statement (.addi g d a imm) :=
  fun _ => rfl
theorem Length.andi (g : Guard) (d a : Reg) (imm : BitVec 11) : Length.Statement (.andi g d a imm) :=
  fun _ => rfl
theorem Length.ori (g : Guard) (d a : Reg) (imm : BitVec 11) : Length.Statement (.ori g d a imm) := fun _ => rfl
theorem Length.xori (g : Guard) (d a : Reg) (imm : BitVec 11) : Length.Statement (.xori g d a imm) :=
  fun _ => rfl
theorem Length.slli (g : Guard) (d a : Reg) (sh : BitVec 6) : Length.Statement (.slli g d a sh) := fun _ => rfl
theorem Length.srli (g : Guard) (d a : Reg) (sh : BitVec 6) : Length.Statement (.srli g d a sh) := fun _ => rfl
theorem Length.srai (g : Guard) (d a : Reg) (sh : BitVec 6) : Length.Statement (.srai g d a sh) := fun _ => rfl
theorem Length.li (g : Guard) (d : Reg) (imm : BitVec 16) : Length.Statement (.li g d imm) := fun _ => rfl
theorem Length.lsh (g : Guard) (d : Reg) (imm : BitVec 16) : Length.Statement (.lsh g d imm) := fun _ => rfl
theorem Length.move (g : Guard) (ed : Reg8) (a : Reg) : Length.Statement (.move g ed a) := fun _ => rfl
theorem Length.movx (g : Guard) (d : Reg) (ea : Reg8) : Length.Statement (.movx g d ea) := fun _ => rfl
theorem Length.sel (g : Guard) (p : Reg8) (d a b : Reg) : Length.Statement (.sel g p d a b) := fun _ => rfl
theorem Length.br (g : Guard) (off : BitVec 21) : Length.Statement (.br g off) := fun _ => rfl
theorem Length.call (g : Guard) (off : BitVec 21) : Length.Statement (.call g off) := fun _ => rfl
theorem Length.jr (g : Guard) (a : Reg) : Length.Statement (.jr g a) := fun _ => rfl
theorem Length.callr (g : Guard) (a : Reg) : Length.Statement (.callr g a) := fun _ => rfl
theorem Length.ret (g : Guard) : Length.Statement (.ret g) := fun _ => rfl
theorem Length.loop (g : Guard) (a : Reg) (len : BitVec 10) : Length.Statement (.loop g a len) := fun _ => rfl
theorem Length.loopi (g : Guard) (count : BitVec 11) (len : BitVec 10) : Length.Statement (.loopi g count len) :=
  fun _ => rfl
theorem Length.pand (g : Guard) (pd pa pb : Reg8) : Length.Statement (.pand g pd pa pb) := fun _ => rfl
theorem Length.por (g : Guard) (pd pa pb : Reg8) : Length.Statement (.por g pd pa pb) := fun _ => rfl
theorem Length.pxor (g : Guard) (pd pa pb : Reg8) : Length.Statement (.pxor g pd pa pb) := fun _ => rfl
theorem Length.pandn (g : Guard) (pd pa pb : Reg8) : Length.Statement (.pandn g pd pa pb) := fun _ => rfl
theorem Length.porn (g : Guard) (pd pa pb : Reg8) : Length.Statement (.porn g pd pa pb) := fun _ => rfl
theorem Length.pget (g : Guard) (d : Reg) : Length.Statement (.pget g d) := fun _ => rfl
theorem Length.pset (g : Guard) (a : Reg) : Length.Statement (.pset g a) := fun _ => rfl
theorem Length.ld (g : Guard) (w : Width) (z : Bool) (d a : Reg) (disp : BitVec 8) : Length.Statement (.ld g w z d a disp) :=
  fun _ => rfl
theorem Length.ldAcq (g : Guard) (sc : Scope) (w : Width) (z : Bool) (d a : Reg) (disp : BitVec 5) : Length.Statement (.ldAcq g sc w z d a disp) :=
  fun _ => rfl
theorem Length.ldCon (g : Guard) (w : Width) (z : Bool) (d a : Reg) (disp : BitVec 5) : Length.Statement (.ldCon g w z d a disp) :=
  fun _ => rfl
theorem Length.st (g : Guard) (w : Width) (home : Bool) (src a : Reg) (disp : BitVec 8) : Length.Statement (.st g w home src a disp) :=
  fun _ => rfl
theorem Length.stRel (g : Guard) (sc : Scope) (w : Width) (home : Bool) (src a : Reg) (disp : BitVec 5) : Length.Statement (.stRel g sc w home src a disp) :=
  fun _ => rfl
theorem Length.aadd (g : Guard) (o : AOrd) (sc : AScope) (home : Bool) (d a b : Reg) : Length.Statement (.aadd g o sc home d a b) :=
  fun _ => rfl
theorem Length.amin (g : Guard) (o : AOrd) (sc : AScope) (home : Bool) (d a b : Reg) : Length.Statement (.amin g o sc home d a b) :=
  fun _ => rfl
theorem Length.amax (g : Guard) (o : AOrd) (sc : AScope) (home : Bool) (d a b : Reg) : Length.Statement (.amax g o sc home d a b) :=
  fun _ => rfl
theorem Length.aand (g : Guard) (o : AOrd) (sc : AScope) (home : Bool) (d a b : Reg) : Length.Statement (.aand g o sc home d a b) :=
  fun _ => rfl
theorem Length.aor (g : Guard) (o : AOrd) (sc : AScope) (home : Bool) (d a b : Reg) : Length.Statement (.aor g o sc home d a b) :=
  fun _ => rfl
theorem Length.axor (g : Guard) (o : AOrd) (sc : AScope) (home : Bool) (d a b : Reg) : Length.Statement (.axor g o sc home d a b) :=
  fun _ => rfl
theorem Length.aswap (g : Guard) (o : AOrd) (sc : AScope) (home : Bool) (d a b : Reg) : Length.Statement (.aswap g o sc home d a b) :=
  fun _ => rfl
theorem Length.acas (g : Guard) (o : AOrd) (sc : AScope) (home : Bool) (d a b : Reg) : Length.Statement (.acas g o sc home d a b) :=
  fun _ => rfl
theorem Length.acasq (g : Guard) (o : AOrd) (sc : AScope) (d a b : Reg) : Length.Statement (.acasq g o sc d a b) :=
  fun _ => rfl
theorem Length.fence (g : Guard) (sc : Scope) : Length.Statement (.fence g sc) := fun _ => rfl
theorem Length.sealR (g : Guard) (a : Reg) : Length.Statement (.sealR g a) := fun _ => rfl
theorem Length.unsealR (g : Guard) (a : Reg) : Length.Statement (.unsealR g a) := fun _ => rfl
theorem Length.waitv (g : Guard) (a b : Reg) : Length.Statement (.waitv g a b) := fun _ => rfl
theorem Length.semp (g : Guard) (k : Fin 4) (a : Reg) : Length.Statement (.semp g k a) := fun _ => rfl
theorem Length.semv (g : Guard) (k : Fin 4) (a : Reg) : Length.Statement (.semv g k a) := fun _ => rfl
theorem Length.barw (g : Guard) (ch : Fin 4) (d a b : Reg) : Length.Statement (.barw g ch d a b) := fun _ => rfl
theorem Length.rwait (g : Guard) (side : RSide) (h : Handle) (n : BitVec 11) : Length.Statement (.rwait g side h n) :=
  fun _ => rfl
theorem Length.radv (g : Guard) (side : RSide) (h : Handle) (n : BitVec 11) : Length.Statement (.radv g side h n) :=
  fun _ => rfl
theorem Length.cwb (g : Guard) (a : Reg) : Length.Statement (.cwb g a) := fun _ => rfl
theorem Length.cinv (g : Guard) (a : Reg) : Length.Statement (.cinv g a) := fun _ => rfl
theorem Length.iinv (g : Guard) (a : Reg) : Length.Statement (.iinv g a) := fun _ => rfl
theorem Length.ifb (g : Guard) : Length.Statement (.ifb g) := fun _ => rfl
theorem Length.ldr (g : Guard) (d : Reg) (h : Handle) (b : Reg) : Length.Statement (.ldr g d h b) :=
  fun _ => rfl
theorem Length.str (g : Guard) (src : Reg) (h : Handle) (b : Reg) : Length.Statement (.str g src h b) :=
  fun _ => rfl
theorem Length.ctset (g : Guard) (n : Fin 16) (a : Reg) : Length.Statement (.ctset g n a) := fun _ => rfl
theorem Length.ctclr (g : Guard) (d : Reg) (n : Fin 16) : Length.Statement (.ctclr g d n) := fun _ => rfl
theorem Length.vadd (g : Guard) (t : IType) (d a b : Reg) : Length.Statement (.vadd g t d a b) := fun _ => rfl
theorem Length.vsub (g : Guard) (t : IType) (d a b : Reg) : Length.Statement (.vsub g t d a b) := fun _ => rfl
theorem Length.vmul (g : Guard) (t : IType) (d a b : Reg) : Length.Statement (.vmul g t d a b) := fun _ => rfl
theorem Length.vmin (g : Guard) (t : IType) (d a b : Reg) : Length.Statement (.vmin g t d a b) := fun _ => rfl
theorem Length.vmax (g : Guard) (t : IType) (d a b : Reg) : Length.Statement (.vmax g t d a b) := fun _ => rfl
theorem Length.vminu (g : Guard) (t : IType) (d a b : Reg) : Length.Statement (.vminu g t d a b) := fun _ => rfl
theorem Length.vmaxu (g : Guard) (t : IType) (d a b : Reg) : Length.Statement (.vmaxu g t d a b) := fun _ => rfl
theorem Length.vand (g : Guard) (t : IType) (d a b : Reg) : Length.Statement (.vand g t d a b) := fun _ => rfl
theorem Length.vor (g : Guard) (t : IType) (d a b : Reg) : Length.Statement (.vor g t d a b) := fun _ => rfl
theorem Length.vxor (g : Guard) (t : IType) (d a b : Reg) : Length.Statement (.vxor g t d a b) := fun _ => rfl
theorem Length.vsll (g : Guard) (t : IType) (d a b : Reg) : Length.Statement (.vsll g t d a b) := fun _ => rfl
theorem Length.vsrl (g : Guard) (t : IType) (d a b : Reg) : Length.Statement (.vsrl g t d a b) := fun _ => rfl
theorem Length.vsra (g : Guard) (t : IType) (d a b : Reg) : Length.Statement (.vsra g t d a b) := fun _ => rfl
theorem Length.vadds (g : Guard) (t : IType) (d a b : Reg) : Length.Statement (.vadds g t d a b) := fun _ => rfl
theorem Length.vsubs (g : Guard) (t : IType) (d a b : Reg) : Length.Statement (.vsubs g t d a b) := fun _ => rfl
theorem Length.vfadd (g : Guard) (t : FType) (d a b : Reg) : Length.Statement (.vfadd g t d a b) := fun _ => rfl
theorem Length.vfsub (g : Guard) (t : FType) (d a b : Reg) : Length.Statement (.vfsub g t d a b) := fun _ => rfl
theorem Length.vfmul (g : Guard) (t : FType) (d a b : Reg) : Length.Statement (.vfmul g t d a b) := fun _ => rfl
theorem Length.vfdiv (g : Guard) (t : FType) (d a b : Reg) : Length.Statement (.vfdiv g t d a b) := fun _ => rfl
theorem Length.vfmin (g : Guard) (t : FType) (d a b : Reg) : Length.Statement (.vfmin g t d a b) := fun _ => rfl
theorem Length.vfmax (g : Guard) (t : FType) (d a b : Reg) : Length.Statement (.vfmax g t d a b) := fun _ => rfl
theorem Length.vfsqrt (g : Guard) (t : FType) (d a : Reg) : Length.Statement (.vfsqrt g t d a) := fun _ => rfl
theorem Length.vfabs (g : Guard) (t : FType) (d a : Reg) : Length.Statement (.vfabs g t d a) := fun _ => rfl
theorem Length.vfneg (g : Guard) (t : FType) (d a : Reg) : Length.Statement (.vfneg g t d a) := fun _ => rfl
theorem Length.vfma (g : Guard) (t : FType) (d a b : Reg) : Length.Statement (.vfma g t d a b) := fun _ => rfl
theorem Length.vfms (g : Guard) (t : FType) (d a b : Reg) : Length.Statement (.vfms g t d a b) := fun _ => rfl
theorem Length.vfnma (g : Guard) (t : FType) (d a b : Reg) : Length.Statement (.vfnma g t d a b) := fun _ => rfl
theorem Length.vfnms (g : Guard) (t : FType) (d a b : Reg) : Length.Statement (.vfnms g t d a b) := fun _ => rfl
theorem Length.vcvt (g : Guard) (sr : Bool) (src dst : Fin 32) (d a : Reg) : Length.Statement (.vcvt g sr src dst d a) :=
  fun _ => rfl
theorem Length.vcmp (g : Guard) (cc : VCc) (t : LType) (all : Bool) (pd : Reg8) (a b : Reg) : Length.Statement (.vcmp g cc t all pd a b) :=
  fun _ => rfl
theorem Length.vperm (g : Guard) (d a b : Reg) : Length.Statement (.vperm g d a b) := fun _ => rfl
theorem Length.vbcast (g : Guard) (t : IType) (d a : Reg) : Length.Statement (.vbcast g t d a) := fun _ => rfl
theorem Length.vext (g : Guard) (t : IType) (d a b : Reg) : Length.Statement (.vext g t d a b) := fun _ => rfl
theorem Length.vins (g : Guard) (t : IType) (d a b : Reg) : Length.Statement (.vins g t d a b) := fun _ => rfl
theorem Length.vredSum (g : Guard) (t : LType) (d a : Reg) : Length.Statement (.vredSum g t d a) := fun _ => rfl
theorem Length.vredMin (g : Guard) (t : LType) (d a : Reg) : Length.Statement (.vredMin g t d a) := fun _ => rfl
theorem Length.vredMax (g : Guard) (t : LType) (d a : Reg) : Length.Statement (.vredMax g t d a) := fun _ => rfl
theorem Length.vld (g : Guard) (d a : Reg) (disp : BitVec 11) : Length.Statement (.vld g d a disp) :=
  fun _ => rfl
theorem Length.vst (g : Guard) (src a : Reg) (disp : BitVec 11) : Length.Statement (.vst g src a disp) :=
  fun _ => rfl
theorem Length.vldr (g : Guard) (d : Reg) (h : Handle) (side : RSide) (slot : BitVec 5) (off : BitVec 6) : Length.Statement (.vldr g d h side slot off) :=
  fun _ => rfl
theorem Length.vstr (g : Guard) (src : Reg) (h : Handle) (side : RSide) (slot : BitVec 5) (off : BitVec 6) : Length.Statement (.vstr g src h side slot off) :=
  fun _ => rfl
theorem Length.vmsum (g : Guard) (d a b : Reg) : Length.Statement (.vmsum g d a b) := fun _ => rfl
theorem Length.vrscl (g : Guard) (d a b : Reg) : Length.Statement (.vrscl g d a b) := fun _ => rfl
theorem Length.mm (g : Guard) (pair : Fin 22) (z : ZTile) (u la : Bool) (a b vs : Reg) : Length.Statement (.mm g pair z u la a b vs) :=
  fun _ => rfl
theorem Length.mmr (g : Guard) (pair : Fin 22) (z : ZTile) (u : Bool) (b vs : Reg) : Length.Statement (.mmr g pair z u b vs) :=
  fun _ => rfl
theorem Length.latchA (g : Guard) (a : Reg) : Length.Statement (.latchA g a) := fun _ => rfl
theorem Length.latchB (g : Guard) (a : Reg) : Length.Statement (.latchB g a) := fun _ => rfl
theorem Length.zld (g : Guard) (z : ZTile) (a : Reg) (fmt : Fin 32) : Length.Statement (.zld g z a fmt) :=
  fun _ => rfl
theorem Length.zst (g : Guard) (z : ZTile) (a : Reg) (fmt : Fin 32) : Length.Statement (.zst g z a fmt) :=
  fun _ => rfl
theorem Length.zclr (g : Guard) (z : ZTile) : Length.Statement (.zclr g z) := fun _ => rfl
theorem Length.spawn (g : Guard) (inl restart linked single : Bool) (d a b : Reg) : Length.Statement (.spawn g inl restart linked single d a b) :=
  fun _ => rfl
theorem Length.touch (g : Guard) (d a : Reg) : Length.Statement (.touch g d a) := fun _ => rfl
theorem Length.touchQ (g : Guard) (d a : Reg) : Length.Statement (.touchQ g d a) := fun _ => rfl
theorem Length.resolve (g : Guard) (d a b : Reg) : Length.Statement (.resolve g d a b) := fun _ => rfl
theorem Length.poison (g : Guard) (d a b : Reg) : Length.Statement (.poison g d a b) := fun _ => rfl
theorem Length.fcan (g : Guard) (d a : Reg) : Length.Statement (.fcan g d a) := fun _ => rfl
theorem Length.frel (g : Guard) (a : Reg) : Length.Statement (.frel g a) := fun _ => rfl
theorem Length.ftest (g : Guard) (pd : Reg8) (a : Reg) : Length.Statement (.ftest g pd a) := fun _ => rfl
theorem Length.fdec (g : Guard) (a : Reg) : Length.Statement (.fdec g a) := fun _ => rfl
theorem Length.glaunch (g : Guard) (d a b : Reg) : Length.Statement (.glaunch g d a b) := fun _ => rfl
theorem Length.yield (g : Guard) : Length.Statement (.yield g) := fun _ => rfl
theorem Length.texit (g : Guard) : Length.Statement (.texit g) := fun _ => rfl
theorem Length.send (g : Guard) (d a b : Reg) : Length.Statement (.send g d a b) := fun _ => rfl
theorem Length.sendc (g : Guard) (d a : Reg) : Length.Statement (.sendc g d a) := fun _ => rfl
theorem Length.eng (g : Guard) (d a : Reg) : Length.Statement (.eng g d a) := fun _ => rfl
theorem Length.rld (g : Guard) (w : Width) (d a : Reg) : Length.Statement (.rld g w d a) := fun _ => rfl
theorem Length.rldF (g : Guard) (w : Width) (d a : Reg) : Length.Statement (.rldF g w d a) := fun _ => rfl
theorem Length.rst (g : Guard) (w : Width) (a b : Reg) : Length.Statement (.rst g w a b) := fun _ => rfl
theorem Length.trap (g : Guard) (hi lo : Fin 32) : Length.Statement (.trap g hi lo) := fun _ => rfl
theorem Length.ebreak (g : Guard) : Length.Statement (.ebreak g) := fun _ => rfl
theorem Length.eret (g : Guard) : Length.Statement (.eret g) := fun _ => rfl
theorem Length.csrr (g : Guard) (d : Reg) (hi lo : Fin 32) : Length.Statement (.csrr g d hi lo) := fun _ => rfl
theorem Length.csrw (g : Guard) (src : Reg) (hi lo : Fin 32) : Length.Statement (.csrw g src hi lo) :=
  fun _ => rfl
theorem Length.sleep (g : Guard) : Length.Statement (.sleep g) := fun _ => rfl
theorem Length.cMov (d a : Reg) : Length.Statement (.cMov d a) := fun _ => rfl
theorem Length.cAdd (d a : Reg) : Length.Statement (.cAdd d a) := fun _ => rfl
theorem Length.cSub (d a : Reg) : Length.Statement (.cSub d a) := fun _ => rfl
theorem Length.cAnd (d a : Reg) : Length.Statement (.cAnd d a) := fun _ => rfl
theorem Length.cOr (d a : Reg) : Length.Statement (.cOr d a) := fun _ => rfl
theorem Length.cXor (d a : Reg) : Length.Statement (.cXor d a) := fun _ => rfl
theorem Length.cAddi (d : Reg) (imm : BitVec 6) : Length.Statement (.cAddi d imm) := fun _ => rfl
theorem Length.cLi (d : Reg) (imm : BitVec 6) : Length.Statement (.cLi d imm) := fun _ => rfl
theorem Length.cSlli (d : Reg) (sh : BitVec 6) : Length.Statement (.cSlli d sh) := fun _ => rfl
theorem Length.cSrli (d : Reg) (sh : BitVec 6) : Length.Statement (.cSrli d sh) := fun _ => rfl
theorem Length.cLd (d a : Reg) : Length.Statement (.cLd d a) := fun _ => rfl
theorem Length.cSt (src a : Reg) : Length.Statement (.cSt src a) := fun _ => rfl
theorem Length.cBr (off : BitVec 11) : Length.Statement (.cBr off) := fun _ => rfl
theorem Length.cRet : Length.Statement (.cRet) := fun _ => rfl
theorem Length.cTouch (d a : Reg) : Length.Statement (.cTouch d a) := fun _ => rfl
theorem Length.migrationArrival (n : Nat) : Length.Statement (.migrationArrival n) := by intro h; cases h
theorem Length.bind (t a : Nat) : Length.Statement (.bind t a) := by intro h; cases h
theorem Length.perform0 (t a : Nat) : Length.Statement (.perform0 t a) := by intro h; cases h
theorem Length.performHome (t a : Nat) : Length.Statement (.performHome t a) := by intro h; cases h
theorem Length.complete (t a : Nat) : Length.Statement (.complete t a) := by intro h; cases h
theorem Length.forward (p e l : Nat) : Length.Statement (.forward p e l) := by intro h; cases h
theorem Length.remove (p e l : Nat) : Length.Statement (.remove p e l) := by intro h; cases h
theorem Length.l1LineDrop (c p l : Nat) : Length.Statement (.l1LineDrop c p l) := by intro h; cases h
theorem Length.plbRefill (c dom va : Nat) : Length.Statement (.plbRefill c dom va) := by intro h; cases h
theorem Length.translationWalk (p e va : Nat) : Length.Statement (.translationWalk p e va) := by intro h; cases h
theorem Length.atomicUnitOperation (t a : Nat) : Length.Statement (.atomicUnitOperation t a) := by intro h; cases h
theorem Length.hostWriteToCachedLine (p iova : Nat) (data : List Byte) : Length.Statement (.hostWriteToCachedLine p iova data) :=
  by intro h; cases h
theorem Length.trapEntry (t : Nat) : Length.Statement (.trapEntry t) := by intro h; cases h
theorem Length.acklost (t a : Nat) : Length.Statement (.acklost t a) := by intro h; cases h
theorem Length.preempt (t : Nat) : Length.Statement (.preempt t) := by intro h; cases h
theorem Length.taskPreemption (cl : Nat) : Length.Statement (.taskPreemption cl) := by intro h; cases h
theorem Length.sleepTimeout (t : Nat) : Length.Statement (.sleepTimeout t) := by intro h; cases h
theorem Length.sleepDepthDescent (c : Nat) : Length.Statement (.sleepDepthDescent c) := by intro h; cases h
theorem Length.coreWake (c : Nat) : Length.Statement (.coreWake c) := by intro h; cases h
theorem Length.barrierArrival (t : Nat) : Length.Statement (.barrierArrival t) := by intro h; cases h
theorem Length.barrierCompletion (t : Nat) : Length.Statement (.barrierCompletion t) := by intro h; cases h
theorem Length.barrierTimeout (t : Nat) : Length.Statement (.barrierTimeout t) := by intro h; cases h
theorem Length.barrierWithdrawal (t : Nat) : Length.Statement (.barrierWithdrawal t) := by intro h; cases h
theorem Length.latchCompletion (c : Nat) (latch : Bool) : Length.Statement (.latchCompletion c latch) :=
  by intro h; cases h
theorem Length.matrixUnitCompletion (c : Nat) : Length.Statement (.matrixUnitCompletion c) := by intro h; cases h
theorem Length.pass (c : Nat) (south : Bool) : Length.Statement (.pass c south) := by intro h; cases h
theorem Length.messageReceipt (c : Nat) : Length.Statement (.messageReceipt c) := by intro h; cases h
theorem Length.handlerStart (c : Nat) : Length.Statement (.handlerStart c) := by intro h; cases h
theorem Length.injectionQueueDrain (c : Nat) : Length.Statement (.injectionQueueDrain c) := by intro h; cases h
theorem Length.dispatch (cl : Nat) : Length.Statement (.dispatch cl) := by intro h; cases h
theorem Length.frameAllocation (cl : Nat) : Length.Statement (.frameAllocation cl) := by intro h; cases h
theorem Length.tileFetchCompletion (cl tk : Nat) : Length.Statement (.tileFetchCompletion cl tk) := by intro h; cases h
theorem Length.runQueueAgeing (cl n : Nat) : Length.Statement (.runQueueAgeing cl n) := by intro h; cases h
theorem Length.workSteal (cl : Nat) : Length.Statement (.workSteal cl) := by intro h; cases h
theorem Length.futureSpill (cl : Nat) : Length.Statement (.futureSpill cl) := by intro h; cases h
theorem Length.futureOperation (cl : Nat) (k : Option Packet) : Length.Statement (.futureOperation cl k) :=
  by intro h; cases h
theorem Length.futureAnswerOrWake (n : Nat) (k : Option Packet) : Length.Statement (.futureAnswerOrWake n k) :=
  by intro h; cases h
theorem Length.cancelNotice (cl : Nat) : Length.Statement (.cancelNotice cl) := by intro h; cases h
theorem Length.exhaustionDetector (cl : Nat) : Length.Statement (.exhaustionDetector cl) := by intro h; cases h
theorem Length.freeResourceReport (cl : Nat) : Length.Statement (.freeResourceReport cl) := by intro h; cases h
theorem Length.launchRecordRead (p q : Nat) : Length.Statement (.launchRecordRead p q) := by intro h; cases h
theorem Length.queueMapping : Length.Statement (.queueMapping) := by intro h; cases h
theorem Length.recordAcceptance : Length.Statement (.recordAcceptance) := by intro h; cases h
theorem Length.sourcePriorityAgeing (src : Nat) : Length.Statement (.sourcePriorityAgeing src) := by intro h; cases h
theorem Length.supervisorMove (p : Nat) : Length.Statement (.supervisorMove p) := by intro h; cases h
theorem Length.gangStart (n : Nat) : Length.Statement (.gangStart n) := by intro h; cases h
theorem Length.completionNotice : Length.Statement (.completionNotice) := by intro h; cases h
theorem Length.gangPreemption (src : Nat) : Length.Statement (.gangPreemption src) := by intro h; cases h
theorem Length.copy (x : EngineStep) : Length.Statement (.copy x) := by intro h; cases h
theorem Length.copyr (x : EngineStep) : Length.Statement (.copyr x) := by intro h; cases h
theorem Length.gather (n e : Nat) : Length.Statement (.gather n e) := by intro h; cases h
theorem Length.addv (n : Nat) : Length.Statement (.addv n) := by intro h; cases h
theorem Length.allgather (x : EngineStep) : Length.Statement (.allgather x) := by intro h; cases h
theorem Length.allreduce (x : EngineStep) : Length.Statement (.allreduce x) := by intro h; cases h
theorem Length.cut (n : Nat) : Length.Statement (.cut n) := by intro h; cases h
theorem Length.engineCommandCompletion (n : Nat) : Length.Statement (.engineCommandCompletion n) := by intro h; cases h
theorem Length.stippleTimeout (n : Nat) : Length.Statement (.stippleTimeout n) := by intro h; cases h
theorem Length.copyOnWrite (p gr : Nat) : Length.Statement (.copyOnWrite p gr) := by intro h; cases h
theorem Length.backgroundDrain (p : Nat) : Length.Statement (.backgroundDrain p) := by intro h; cases h
theorem Length.cutTimeout (p : Nat) : Length.Statement (.cutTimeout p) := by intro h; cases h
theorem Length.activeMessage (k : Packet) : Length.Statement (.activeMessage k) := by intro h; cases h
theorem Length.codeCarryingMessage (k : Packet) : Length.Statement (.codeCarryingMessage k) := by intro h; cases h
theorem Length.readRequest (k : Packet) : Length.Statement (.readRequest k) := by intro h; cases h
theorem Length.readReply (k : Packet) : Length.Statement (.readReply k) := by intro h; cases h
theorem Length.write (k : Packet) : Length.Statement (.write k) := by intro h; cases h
theorem Length.writeAcknowledgement (k : Packet) : Length.Statement (.writeAcknowledgement k) := by intro h; cases h
theorem Length.atomic (k : Packet) : Length.Statement (.atomic k) := by intro h; cases h
theorem Length.atomicReply (k : Packet) : Length.Statement (.atomicReply k) := by intro h; cases h
theorem Length.collectiveData (k : Packet) : Length.Statement (.collectiveData k) := by intro h; cases h
theorem Length.stippleBlock (k : Packet) : Length.Statement (.stippleBlock k) := by intro h; cases h
theorem Length.errorReply (k : Packet) : Length.Statement (.errorReply k) := by intro h; cases h
theorem Length.partitionFence (k : Packet) : Length.Statement (.partitionFence k) := by intro h; cases h
theorem Length.management (k : Packet) : Length.Statement (.management k) := by intro h; cases h
theorem Length.flitReceipt (port : Nat) (f : Flit) : Length.Statement (.flitReceipt port f) := by intro h; cases h
theorem Length.replay (port seq : Nat) : Length.Statement (.replay port seq) := by intro h; cases h
theorem Length.portRetrain (port : Nat) (found : PortUp) : Length.Statement (.portRetrain port found) :=
  by intro h; cases h
theorem Length.portDown (port : Nat) : Length.Statement (.portDown port) := by intro h; cases h
theorem Length.keyRollover (port : Nat) (key : List Byte) : Length.Statement (.keyRollover port key) :=
  by intro h; cases h
theorem Length.lqNotify (p q v : Nat) : Length.Statement (.lqNotify p q v) := by intro h; cases h
theorem Length.lqCfgWrite (p q v : Nat) : Length.Statement (.lqCfgWrite p q v) := by intro h; cases h
theorem Length.lqBaseWrite (p q v : Nat) : Length.Statement (.lqBaseWrite p q v) := by intro h; cases h
theorem Length.lqDomWrite (p q v : Nat) : Length.Statement (.lqDomWrite p q v) := by intro h; cases h
theorem Length.errclr (p v : Nat) : Length.Statement (.errclr p v) := by intro h; cases h
theorem Length.plbinv (p v : Nat) : Length.Statement (.plbinv p v) := by intro h; cases h
theorem Length.s1inv (p v : Nat) : Length.Statement (.s1inv p v) := by intro h; cases h
theorem Length.tsareaWrite (cl v : Nat) : Length.Statement (.tsareaWrite cl v) := by intro h; cases h
theorem Length.ringEnable (cl n v : Nat) : Length.Statement (.ringEnable cl n v) := by intro h; cases h
theorem Length.ringDisable (cl n v : Nat) : Length.Statement (.ringDisable cl n v) := by intro h; cases h
theorem Length.corecfgWrite (c v : Nat) : Length.Statement (.corecfgWrite c v) := by intro h; cases h
theorem Length.clssplitChange (c : Nat) : Length.Statement (.clssplitChange c) := by intro h; cases h
theorem Length.mxownChange (c : Nat) : Length.Statement (.mxownChange c) := by intro h; cases h
theorem Length.h3Change (c : Nat) : Length.Statement (.h3Change c) := by intro h; cases h
theorem Length.srstateWrite (c v : Nat) : Length.Statement (.srstateWrite c v) := by intro h; cases h
theorem Length.fstatWrite (t v : Nat) : Length.Statement (.fstatWrite t v) := by intro h; cases h
theorem Length.hdomFdomWrite (p : Nat) (fabric : Bool) (v : Nat) : Length.Statement (.hdomFdomWrite p fabric v) :=
  by intro h; cases h
theorem Length.fspillbaseWrite (cl v : Nat) : Length.Statement (.fspillbaseWrite cl v) := by intro h; cases h
theorem Length.registerWrite (p cl csr v : Nat) : Length.Statement (.registerWrite p cl csr v) := by intro h; cases h
theorem Length.coreKill (c : Nat) : Length.Statement (.coreKill c) := by intro h; cases h
theorem Length.selfTestCompletion (c : Nat) (pass : Bool) : Length.Statement (.selfTestCompletion c pass) :=
  by intro h; cases h
theorem Length.channelTest (gr : Nat) (failing : List Nat) : Length.Statement (.channelTest gr failing) :=
  by intro h; cases h
theorem Length.mcheckDelivery (p : Nat) : Length.Statement (.mcheckDelivery p) := by intro h; cases h
theorem Length.supervisorRelaunch (p : Nat) : Length.Statement (.supervisorRelaunch p) := by intro h; cases h
theorem Length.patrolScrubber (found : HardwareError) : Length.Statement (.patrolScrubber found) := by intro h; cases h
theorem Length.ageingMonitorCheck (cl : Nat) (first second : Nat × Nat) : Length.Statement (.ageingMonitorCheck cl first second) :=
  by intro h; cases h
theorem Length.throttle (celsius watts : Nat) : Length.Statement (.throttle celsius watts) := by intro h; cases h
theorem Length.warmReset (cause : ResetCause) : Length.Statement (.warmReset cause) := by intro h; cases h
theorem Length.coldReset (fuses : Fuses) (image : List Byte) (up : List PortUp) : Length.Statement (.coldReset fuses image up) :=
  by intro h; cases h
theorem Length.retrainingRequest (up : List PortUp) : Length.Statement (.retrainingRequest up) := by intro h; cases h
theorem Length.partitionCreation (sp : PartSpec) : Length.Statement (.partitionCreation sp) := by intro h; cases h
theorem Length.teardown (p : Nat) : Length.Statement (.teardown p) := by intro h; cases h
theorem Length.spdmRequest (q : Requester) (r : SpdmAsk) : Length.Statement (.spdmRequest q r) := by intro h; cases h
theorem Length.imageSubmission (p : Nat) (image : List Byte) : Length.Statement (.imageSubmission p image) :=
  by intro h; cases h
theorem Length.restoreRequest (p : Nat) (r : Restore) : Length.Statement (.restoreRequest p r) := by intro h; cases h
theorem Length.tdispRequest (p : Nat) (run : Bool) : Length.Statement (.tdispRequest p run) := by intro h; cases h
theorem Length.tdispErrorEntry (p : Nat) : Length.Statement (.tdispErrorEntry p) := by intro h; cases h
theorem Length.stopInterfaceRequest (p : Nat) : Length.Statement (.stopInterfaceRequest p) := by intro h; cases h
theorem Length.dieToDieLinkFailure (gr : Option Nat) : Length.Statement (.dieToDieLinkFailure gr) :=
  by intro h; cases h
theorem Length.linkDown (port : Nat) : Length.Statement (.linkDown port) := by intro h; cases h
theorem Length.arbitrationGrant (port : Nat) : Length.Statement (.arbitrationGrant port) := by intro h; cases h

end Sys2Proof.Laws
end

