-- ==== Sys2Proof/Tests/Slice0.lean ====
section
/-!
SUPPORT. The sittings' own tests: ill-formed terms refused, words written out from the encoding tables, results from the
spec's worked examples, and for the statements a state and operands that meet their hypotheses.
-/

namespace Sys2Proof.Tests

open Sys2Proof.Machine Sys2Proof.Safety Sys2Proof.Claims

/-! ## Well-formedness: each check refuses a term (07 R185 to R187, 18 R387) -/

/-- The unguarded case. -/
def un : Guard := .always

theorem test_wf_ld : Instr.wf (.ld un .d true 1 2 0) = false := rfl
theorem test_wf_ldAcq : Instr.wf (.ldAcq un .p .d true 1 2 0) = false := rfl
theorem test_wf_ldCon : Instr.wf (.ldCon un .d true 1 2 0) = false := rfl
theorem test_wf_aadd : Instr.wf (.aadd un .plain .p false 1 2 3) = false := rfl
theorem test_wf_amin : Instr.wf (.amin un .plain .d false 1 2 3) = false := rfl
theorem test_wf_amax : Instr.wf (.amax un .plain .s false 1 2 3) = false := rfl
theorem test_wf_aand : Instr.wf (.aand un .plain .p false 1 2 3) = false := rfl
theorem test_wf_aor : Instr.wf (.aor un .plain .p false 1 2 3) = false := rfl
theorem test_wf_axor : Instr.wf (.axor un .plain .p false 1 2 3) = false := rfl
theorem test_wf_aswap : Instr.wf (.aswap un .plain .p false 1 2 3) = false := rfl
theorem test_wf_acas : Instr.wf (.acas un .plain .p false 1 2 3) = false := rfl
theorem test_wf_acasq_odd_pair : Instr.wf (.acasq un .acq .p 3 2 4) = false := rfl
theorem test_wf_acasq_x0 : Instr.wf (.acasq un .acq .p 0 2 4) = false := rfl
theorem test_wf_acasq_odd_source : Instr.wf (.acasq un .acq .p 2 1 5) = false := rfl
theorem test_wf_acasq_scope : Instr.wf (.acasq un .plain .p 2 1 4) = false := rfl
theorem test_wf_vcvt_pair : Instr.wf (.vcvt un false 0x03 0x04 1 2) = false := rfl
theorem test_wf_vcvt_same : Instr.wf (.vcvt un false 0x00 0x00 1 2) = false := rfl
theorem test_wf_vcvt_span : Instr.wf (.vcvt un false 0x00 0x03 1 2) = false := rfl
theorem test_wf_vcmp : Instr.wf (.vcmp un .ltu .f32 false 1 2 3) = false := rfl
theorem test_wf_mm_u : Instr.wf (.mm un 0 0 true false 1 0 0) = false := rfl
theorem test_wf_mm_vs : Instr.wf (.mm un 0 0 false false 1 0 4) = false := rfl
theorem test_wf_mm_scales_fit : Instr.wf (.mm un 9 0 false false 1 0 25) = false := rfl
theorem test_wf_mm_b : Instr.wf (.mm un 0 0 false false 1 3 0) = false := rfl
theorem test_wf_mm_la : Instr.wf (.mm un 0 0 false true 1 0 0) = false := rfl
theorem test_wf_mmr : Instr.wf (.mmr un 0 0 true 0 0) = false := rfl
theorem test_wf_zld : Instr.wf (.zld un 0 1 0x03) = false := rfl
theorem test_wf_zst : Instr.wf (.zst un 0 1 0x0D) = false := rfl
theorem test_wf_touchQ : Instr.wf (.touchQ un 0 1) = false := rfl

/-! ## Words, from the tables and worked examples of 07 to 12 -/

/-- A 32-bit word decodes to an instruction. -/
def reads (w : Nat) (i : Instr) : Prop := decode (leBytes 4 w) = .ok (i, 4)

theorem test_decode_add : reads 0x00E62981 (.add ⟨false, 3⟩ 5 6 7) := rfl
theorem test_decode_li : reads 0x01231815 (.li un 3 0x0123) := rfl
theorem test_decode_lsh : reads 0xCDEF1817 (.lsh un 3 0xCDEF) := rfl
theorem test_decode_loopi : reads 0x00850029 (.loopi un 4 5) := rfl
theorem test_decode_ld_w_z : reads 0xBFC44831 (.ld un .w true 9 4 (-2)) := rfl
theorem test_decode_ld_acq : reads 0x90444835 (.ldAcq un .p .w false 9 4 2) := rfl
theorem test_decode_st_d : reads 0xC0062833 (.st un .d false 5 6 0) := rfl
theorem test_decode_st_rel : reads 0xF0462837 (.stRel un .p .d true 5 6 2) := rfl
theorem test_decode_aadd : reads 0x1907003D (.aadd un .rel .p true 0 7 8) := rfl
theorem test_decode_acasq : reads 0xBDCC5041 (.acasq un .ar .s 10 12 14) := rfl
theorem test_decode_fence : reads 0x10000041 (.fence un .p) := rfl
theorem test_decode_barw : reads 0x64A41841 (.barw un 1 3 4 5) := rfl
theorem test_decode_iinv : reads 0x08060047 (.iinv un 6) := rfl
theorem test_decode_ifb : reads 0x0C000047 (.ifb un) := rfl
theorem test_decode_ldr : reads 0x20C22847 (.ldr un 5 2 6) := rfl
theorem test_decode_vadd : reads 0x08412049 (.vadd un .i32 4 1 2) := rfl
theorem test_decode_vfma : reads 0x04C5204D (.vfma un .f32 4 5 6) := rfl
theorem test_decode_mm : reads 0x1806086B (.mm un 10 1 false false 6 0 3) := rfl
theorem test_decode_mm_latched : reads 0x24004063 (.mm un 3 0 false true 0 0 4) := rfl
theorem test_decode_zclr : reads 0x10001077 (.zclr un 2) := rfl
theorem test_decode_spawn : reads 0x056A4879 (.spawn un false false false true 9 10 11) := rfl
theorem test_decode_touch : reads 0x40092879 (.touch un 5 9) := rfl
theorem test_decode_ftest : reads 0x58091079 (.ftest un 2 9) := rfl
theorem test_decode_fdec : reads 0x5C090079 (.fdec un 9) := rfl
theorem test_decode_glaunch : reads 0x016A487B (.glaunch un 9 10 11) := rfl
theorem test_decode_yield : reads 0x0400007B (.yield un) := rfl
theorem test_decode_texit : reads 0x0800007B (.texit un) := rfl
theorem test_decode_send : reads 0x22B4187B (.send un 3 20 21) := rfl
theorem test_decode_eng : reads 0x4014487B (.eng un 9 20) := rfl
theorem test_decode_rld : reads 0x0C06287D (.rld un .d 5 6) := rfl
theorem test_decode_rld_future : reads 0x1C06287D (.rldF un .d 5 6) := rfl
theorem test_decode_rst : reads 0x28E6007D (.rst un .w 6 7) := rfl
theorem test_decode_eret : reads 0x0800007F (.eret un) := rfl
theorem test_decode_c_add : decode (leBytes 2 0x2424) = .ok (.cAdd 1 9, 2) := rfl
theorem test_decode_undefined_word : decode (leBytes 4 0x74E62C01) = .error (.notAnInstruction 4 0x74E62C01) := rfl
theorem test_decode_undefined_half : decode (leBytes 2 0x003C) = .error (.notAnInstruction 2 0x003C) := rfl
theorem test_encode_add : encode (.add ⟨false, 3⟩ 5 6 7) = leBytes 4 0x00E62981 := rfl
theorem test_table_word : decodeTableWord 32 0x00E62981 = some (.add ⟨false, 3⟩ 5 6 7) := rfl
theorem test_table_half : decodeTableWord 16 0x2424 = some (.cAdd 1 9) := rfl

/-! ## States for the tests -/

/-- A package whose partition 0 runs its supervisor in slot 0 of core 0, at 0x10000. -/
def s0 : State := State.reset.withFetchWord 32 0x401

/-- That supervisor. -/
def sup : Thread := Thread.fresh 0x10000 .supervisor 0 0 .all

/-- A task thread at U level with every register declared. -/
def usr : Thread := Thread.fresh 0x10000 .task 0 0 .all

/-- The package with a thread in slot 0 of core 0. -/
def on (th : Thread) : State := s0.setThread 0 th

/-- Whether the current thread executes an instruction normally. -/
def issuesB (i : Instr) (s : State) (th : Thread) : Bool :=
  let u := usesAt i s th
  th.guardTrue i.guard && !th.hazard u && (u.drain.map th.completeAt).getD true && !th.delivers u && !u.unassigned
    && (resourceCheck th u).isNone && (!u.priv || th.supervisor)
    && (!u.mx || s.cur % 4 == (s.core (coreOfKey s.cur)).mxNow)

theorem issues_of {i : Instr} {s : State} {th : Thread} (ht : s.thread s.cur = some th) (h : issuesB i s th = true) :
    Issues i s th := by
  simp only [issuesB, Bool.and_eq_true, Bool.not_eq_true', Bool.or_eq_true, Option.isNone_iff_eq_none, beq_iff_eq] at h
  obtain ⟨⟨⟨⟨⟨⟨⟨h1, h2⟩, h3⟩, h4⟩, h5⟩, h6⟩, h7⟩, h8⟩ := h
  exact ⟨ht, h1, h2, h3, h4, h5, h6, fun h => h7.resolve_left (by simp [h]), fun h => h8.resolve_left (by simp [h])⟩

/-! ## Scalar and control -/

theorem wit_ScalarResults : scalarWrite sup (.addi un 5 0 (-1)) = some (5, -1, false) ∧ Issues (.addi un 5 0 (-1)) (on sup) sup :=
  ⟨rfl, issues_of rfl rfl⟩
theorem wit_ScalarResults_x0 : scalarWrite sup (.li un 0 7) = some (0, 7, false) ∧ Issues (.li un 0 7) (on sup) sup :=
  ⟨rfl, issues_of rfl rfl⟩
theorem wit_ScalarResults_half : scalarWrite sup (.cSrli 31 63) = some (31, 0, false) ∧ Issues (.cSrli 31 63) (on sup) sup :=
  ⟨rfl, issues_of rfl rfl⟩
theorem wit_PredicateResults : predicateWrite sup (.cmp un .eq 0 1 2) = some (0, true) ∧ Issues (.cmp un .eq 0 1 2) (on sup) sup :=
  ⟨rfl, issues_of rfl rfl⟩
theorem wit_MoveResults : Issues (.move un 7 31) (on sup) sup ∧ Issues (.pset un 31) (on sup) sup :=
  ⟨issues_of rfl rfl, issues_of rfl rfl⟩
theorem wit_RegisterFile : (31 : Reg) ≠ 0 ∧ (7 : Reg8) ≠ 0 := by decide

/-- A thread in a loop whose level 0 counts n. -/
def looping (n : Nat) : Thread := { sup with lact0 := true, lcount0 := BitVec.ofNat 24 n, lend := 0x10010 }

theorem wit_CountedLoopPasses : (2 : Nat) < 2 ^ 24 - 1 ∧ (looping 3).lact0 = true ∧ (looping 3).lact1 = false ∧
    (looping 3).lcount0 = BitVec.ofNat 24 (2 + 1) := ⟨by decide, rfl, rfl, rfl⟩

/-- The same thread inside a level 1 that counts n, whose end lies `d` halfwords before level 0's. -/
def looping1 (n d : Nat) : Thread :=
  { looping 1 with lact1 := true, lcount1 := BitVec.ofNat 24 n, dend := BitVec.ofNat 10 d }

theorem wit_CountedLoopPasses_around : (looping1 1 2).lact0 = true ∧ (looping1 1 2).dend ≠ 0 ∧
    (looping1 1 2).lcount0 = BitVec.ofNat 24 (0 + 1) := ⟨rfl, by decide, rfl⟩
theorem wit_CountedLoopPasses_inner : (looping1 3 0).lact1 = true ∧ (looping1 3 0).lcount1 = BitVec.ofNat 24 (2 + 1) ∧
    (looping1 3 0).dend = 0 ∧ (looping1 3 0).lact0 = true ∧ (looping1 3 0).lcount0 = 1 ∧ (looping1 3 2).dend ≠ 0 :=
  ⟨rfl, rfl, rfl, rfl, rfl, by decide⟩

/-- A thread with a value in x1. -/
def x1 (v : Word) : Thread := { sup with x := sup.x.set 1 v }

theorem wit_BranchesTaken : Issues (.br un (-1)) (on sup) sup ∧ Issues (.cBr 0x3FF) (on sup) sup ∧
    Issues (.jr un 1) (on (x1 0xFFFFFFFFFFFFFE)) (x1 0xFFFFFFFFFFFFFE) ∧ ((x1 0xFFFFFFFFFFFFFE).getX 1).getLsbD 0 = false ∧
    ((x1 0xFFFFFFFFFFFFFE).getX 1).toNat < 2 ^ 56 :=
  ⟨issues_of rfl rfl, issues_of rfl rfl, issues_of rfl rfl, rfl, by decide⟩

/-- A thread whose return store is full, with room for spills. -/
def full : Thread := { sup with rs := Vector.replicate 8 0x20001, ownLen := 1 }

theorem wit_Calls : sup.rs[7].getLsbD 0 = false ∧ Issues (.call un 4) (on sup) sup ∧ Issues (.callr un 0) (on sup) sup ∧
    (sup.getX 0).getLsbD 0 = false ∧ (sup.getX 0).toNat < 2 ^ 56 :=
  ⟨rfl, issues_of rfl rfl, issues_of rfl rfl, rfl, by decide⟩
theorem wit_CallsSpill : Issues (.call un 4) (on full) full ∧ full.rs[7].getLsbD 0 = true ∧ full.ownLen ≠ 0 ∧
    full.spilld ≠ 32 ∧ ((on full).core (coreOfKey (on full).cur)).contours = [] :=
  ⟨issues_of rfl rfl, rfl, by decide, by decide, rfl⟩
theorem wit_ReturnsPop : full.rs[0].getLsbD 0 = true ∧ full.rs[0] ≠ 1 ∧ Issues (.ret un) (on full) full ∧
    Issues .cRet (on full) full := ⟨rfl, by decide, issues_of rfl rfl, issues_of rfl rfl⟩

/-- A thread with an address in its first spill slot, and none in its return store. -/
def popping : Thread := { sup with ownLen := 1, spilld := 1 }
def popped : State := (on popping).storeWord (windowPlace 0 0) 0x20001

theorem wit_ReturnsPop_refill : popping.rs[0].getLsbD 0 = false ∧ popping.spilld ≠ 0 ∧ popping.acc = [] ∧
    popped.isPoisoned (windowPlace 0 0) = false ∧
    (BitVec.ofNat 64 (leNat (popped.placeBytes (windowPlace 0 0) 8)) : Word) = 0x20001 ∧ Issues (.ret un) popped popping ∧
    Issues .cRet popped popping := ⟨rfl, by decide, rfl, by decide, by decide, issues_of rfl rfl, issues_of rfl rfl⟩
theorem wit_TransferTraps_full : Issues (.call un 4) (on { full with ownLen := 0 }) { full with ownLen := 0 } ∧
    full.rs[7].getLsbD 0 = true := ⟨issues_of rfl rfl, rfl⟩
theorem wit_TransferTraps_spilled : Issues (.call un 4) (on { full with spilld := 32 }) { full with spilld := 32 } :=
  issues_of rfl rfl
theorem wit_TransferTraps_empty : Issues (.ret un) (on sup) sup ∧ sup.rs[0].getLsbD 0 = false ∧ sup.spilld = 0 :=
  ⟨issues_of rfl rfl, rfl, rfl⟩
theorem wit_TransferTraps_odd : Issues (.jr un 1) (on (x1 1)) (x1 1) ∧ Issues (.callr un 1) (on (x1 1)) (x1 1) ∧
    ((x1 1).getX 1).getLsbD 0 = true := ⟨issues_of rfl rfl, issues_of rfl rfl, rfl⟩
theorem wit_ReturnStoreIsAStack : [(4 : BitVec 56), 8].length ≤ 8 ∧ ∀ a ∈ [(4 : BitVec 56), 8], a.getLsbD 0 = false :=
  ⟨by decide, by intro a ha; simp at ha; rcases ha with rfl | rfl <;> rfl⟩
theorem wit_LoopsOpen_skip : Issues (.loopi un 0 5) (on sup) sup ∧ (0 : Nat) < 2 ^ 11 := ⟨issues_of rfl rfl, by decide⟩
theorem wit_LoopsOpen_first : Issues (.loop un 1 5) (on (x1 16777215)) (x1 16777215) ∧ sup.lact0 = false ∧
    ((x1 16777215).getX 1).toNat = 16777215 := ⟨issues_of rfl rfl, rfl, by decide⟩

/-- A thread inside a body of 32 halfwords from 0x10000. -/
def nested : Thread := { x1 2 with lact0 := true, lcount0 := 2, lend := 0x10040, llen0 := 31 }

theorem wit_LoopsOpen_second : Issues (.loop un 1 5) (on nested) nested ∧ nested.lact0 = true ∧ nested.lact1 = false ∧
    nested.start0.toNat ≤ nested.pc.toNat ∧
    (nested.pc + 4 + 2 * ((5 : BitVec 10).zeroExtend 56 + 1)).toNat ≤ nested.lend.toNat :=
  ⟨issues_of rfl rfl, rfl, rfl, by decide, by decide⟩
theorem wit_LoopNestTraps_count : Issues (.loop un 1 5) (on (x1 16777216)) (x1 16777216) ∧
    16777215 < ((x1 16777216).getX 1).toNat := ⟨issues_of rfl rfl, by decide⟩
theorem wit_LoopNestTraps_third : Issues (.loop un 1 5) (on { nested with lact1 := true }) { nested with lact1 := true } :=
  issues_of rfl rfl
theorem wit_LoopNestTraps_outside : Issues (.loop un 1 1023) (on nested) nested ∧ nested.lact0 = true ∧
    nested.lend.toNat < (nested.pc + 4 + 2 * ((1023 : BitVec 10).zeroExtend 56 + 1)).toNat :=
  ⟨issues_of rfl rfl, rfl, by decide⟩

/-! ## Issue -/

theorem wit_FalseGuard : sup.guardTrue (Instr.guard (.vcvt ⟨true, 0⟩ true 0x00 0x03 4 8)) = false ∧
    sup.guardTrue (Instr.guard (.loop ⟨false, 1⟩ 1 5)) = false ∧ (on sup).thread (on sup).cur = some sup := ⟨rfl, rfl, rfl⟩

/-- A U-level thread that declares 4 x registers, 4 v registers and ring handle 0. -/
def narrow : Thread :=
  { usr with hdr := ⟨0, 0, 4, 4, 1, 0, 0, false, 0, 0, 0⟩ }

/-- What an instruction of a thread in slot 0 reads, writes and implies. -/
def uses (i : Instr) (th : Thread) : Uses := usesAt i (on th) th

theorem wit_ChecksInOrder_illegal : (uses (.csrr un 1 31 31) sup).unassigned = true ∧
    sup.hazard (uses (.csrr un 1 31 31) sup) = false ∧ sup.delivers (uses (.csrr un 1 31 31) sup) = false := ⟨rfl, rfl, rfl⟩
theorem wit_ChecksInOrder_resource : (uses (.add un 4 1 2) narrow).unassigned = false ∧
    resourceCheck narrow (uses (.add un 4 1 2) narrow) = some 0x1000000000000004 := ⟨rfl, by decide⟩
theorem wit_ChecksInOrder_priv : (uses (.eret un) usr).priv = true ∧ resourceCheck usr (uses (.eret un) usr) = none ∧
    usr.supervisor = false := ⟨rfl, rfl, rfl⟩
theorem wit_ChecksInOrder_mxowner : (uses (.zclr un 0) sup).mx = true ∧ resourceCheck sup (uses (.zclr un 0) sup) = none ∧
    (1 : Nat) % 4 ≠ (s0.core (coreOfKey 1)).mxNow := ⟨rfl, rfl, by decide⟩
theorem wit_HeaderCheck_x : 4 ∈ (uses (.add un 4 1 2) narrow).xw ∧ narrow.supervisor = false ∧ narrow.hdr.xcount ≤ 4 := by
  decide
theorem wit_HeaderCheck_v : 5 ∈ (uses (.vand un .i8 1 2 5) narrow).vr ∧ narrow.hdr.vcount ≤ 5 ∧
    (uses (.vand un .i8 1 2 5) narrow).xr ++ (uses (.vand un .i8 1 2 5) narrow).xw = [] := by decide
theorem wit_HeaderCheck_ring : 1 ∈ (uses (.rwait un .filled 1 1) narrow).handles ∧ narrow.hdr.rings.getLsbD 1 = false := by
  decide
theorem wit_HeaderCheck_barrier : (uses (.barw un 1 1 2 3) narrow).barrier = some 1 ∧ narrow.kind ≠ .gang := by decide
theorem wit_HeaderCheck_sem : (uses (.semp un 1 1) narrow).sem = some 1 ∧ (uses (.semp un 1 1) narrow).barrier = none := by
  decide
theorem wit_HeaderCheck_torus : (uses (.mmr un 0 0 false 0 0) narrow).torus = true := by decide

/-- A load of x5 that has not bound. -/
def loading : Access :=
  { id := 0, op := .load, va := 0x2000, info := 0x2000, size := 8, place := .line, data := [], home := false, ord := .plain
    scope := .t, l1ok := false, consume := false, isSealed := false, dst := .x 5 8 false false, srcX := [], srcV := []
    srcE := false, desc := 0, fpc := 0x10000, dom := 0, atom := false, bad := false, state := .issued, lost := false }

theorem wit_HazardsWait : ({ sup with acc := [loading] }).hazard (uses (.add un 6 5 5) sup) = true := by decide

/-- A store that has not performed. -/
def storing : Access := { loading with op := .store, dst := .none, data := List.replicate 8 1 }

theorem wit_ReleasesWait : ({ sup with acc := [storing] }).hazard (uses (.fence un .p) sup) = false ∧
    (uses (.fence un .p) sup).drain = some .p ∧ ({ sup with acc := [storing] }).completeAt .p = false := by decide
theorem wit_MemoryStaysCanonical : s0.mem.wf = true := by decide

/-! ## Vector instructions -/

theorem wit_IntegerLaneResults : (∃ f, integerLanes (.vadd un .i64 31 0 31) = some (.i64, 31, 0, 31, f)) ∧
    Issues (.vadd un .i64 31 0 31) (on sup) sup := ⟨⟨_, rfl⟩, issues_of rfl rfl⟩
theorem wit_FloatLaneResults : (∃ f, floatLanes (.vfma un .bf16 31 0 31) = some (.bf16, 31, 0, 31, f)) ∧
    Issues (.vfma un .bf16 31 0 31) (on sup) sup := ⟨⟨_, rfl⟩, issues_of rfl rfl⟩
theorem wit_RoundsToNearestEven : ∃ f : FloatFmt, floatFmt 0x03 = some f ∧ (f.round .rne false 17 0 false).2.of = false ∧
    (f.round .rne false 17 0 false).2.csat = false ∧ (f.round .rne false 17 0 false).2.nx = true :=
  ⟨_, rfl, by decide, by decide, by decide⟩
theorem wit_ConversionResults : Instr.wf (.vcvt un true 0x00 0x03 4 8) = true ∧ Issues (.vcvt un true 0x00 0x03 4 8) (on sup) sup :=
  ⟨rfl, issues_of rfl rfl⟩
theorem wit_ConversionResults_wide : Instr.wf (.vcvt un false 0x00 0x01 4 8) = true ∧ cvtClass 0x00 0x01 = some .wide ∧
    Issues (.vcvt un false 0x00 0x01 4 8) (on sup) sup := ⟨rfl, rfl, issues_of rfl rfl⟩
theorem wit_ConversionResults_classes : Instr.wf (.vcvt un false 0x00 0x03 4 8) = true ∧ cvtClass 0x00 0x03 = some .narrowFloat ∧
    cvtClass 0x15 0x0A = some .narrowInt ∧ Instr.wf (.vcvt un false 0x15 0x0A 4 8) = true ∧ cvtClass 0x03 0x00 = some .widenFloat ∧
    Instr.wf (.vcvt un false 0x03 0x00 4 8) = true ∧ cvtClass 0x0A 0x15 = some .widenInt ∧
    Instr.wf (.vcvt un false 0x0A 0x15 4 8) = true ∧ cvtClass 0x0D 0x09 = some .plane ∧
    Instr.wf (.vcvt un false 0x0D 0x09 4 8) = true := by decide
theorem wit_CompareResults : Issues (.vcmp un .ltu .i8 true 7 31 0) (on sup) sup ∧ Issues (.vcmp un .lt .f64 false 0 31 0) (on sup) sup :=
  ⟨issues_of rfl rfl, issues_of rfl rfl⟩
theorem wit_LaneMoves : Issues (.vperm un 31 0 31) (on sup) sup ∧ Issues (.vbcast un .i8 31 0) (on sup) sup ∧
    Issues (.vext un .i64 0 31 31) (on sup) sup ∧ Issues (.vins un .i16 31 0 31) (on sup) sup :=
  ⟨issues_of rfl rfl, issues_of rfl rfl, issues_of rfl rfl, issues_of rfl rfl⟩
theorem wit_Reductions : Issues (.vredSum un .i64 0 31) (on sup) sup ∧ Issues (.vredMin un .f16 31 0) (on sup) sup ∧
    Issues (.vredMax un .i8 31 31) (on sup) sup := ⟨issues_of rfl rfl, issues_of rfl rfl, issues_of rfl rfl⟩
theorem wit_StippleLanes_sum : Issues (.vmsum un 31 0 1) (on (x1 1)) (x1 1) ∧ ((x1 1).getX 1).getLsbD 0 = true ∧
    Issues (.vmsum un 31 0 1) (on (x1 2)) (x1 2) ∧ ((x1 2).getX 1).getLsbD 0 = false :=
  ⟨issues_of rfl rfl, rfl, issues_of rfl rfl, rfl⟩
theorem wit_StippleLanes_scale : Issues (.vrscl un 31 0 1) (on (x1 0x2800000001)) (x1 0x2800000001) ∧
    ((x1 0x2800000001).getX 1).toNat % 2 ^ 32 ≠ 0 ∧ Issues (.vrscl un 31 0 1) (on (x1 0x2800000000)) (x1 0x2800000000) ∧
    ((x1 0x2800000000).getX 1).toNat % 2 ^ 32 = 0 := ⟨issues_of rfl rfl, by decide, issues_of rfl rfl, by decide⟩

/-! ## Steps -/

/-- What a step of a package fetches and decodes, where the conditions of the statement hold. -/
def fetches (s : State) : Option (Except DecodeError (Instr × Nat)) :=
  let s0 := s.pass 1
  let c := coreOfKey s0.cur
  let v := (coreSlots c).foldl State.noteWait (s0.noteActive c)
  match v.pick c (v.core c).turns fun t th => th.ready && !v.leaving t th && th.stuck.isNone with
  | none => none
  | some t =>
    match v.thread t with
    | none => none
    | some th =>
      match fetch { v.noteIssue t th with cur := t } t th with
      | .ok (_, bs) => if s0.schedule = [] ∧ (s0.core c).killed = false ∧ (s0.core c).consumed = none then some (decode bs) else none
      | .error _ => none

theorem wit_StepRunsTheInstruction : fetches (on sup) = some (.ok (.add ⟨true, 0⟩ 0 0 0, 4)) := by decide +kernel
theorem wit_StepRunsTheInstruction_illegal : fetches (State.reset.withFetchWord 32 0x74E62C01) =
    some (.error (.notAnInstruction 4 0x74E62C01)) := by decide +kernel
theorem wit_StepRunsTheInstruction_turn : ∃ i rest, ({ s0 with schedule := [.event (.coreWake 0)] } : State).schedule =
    .event i :: rest ∧ i.isWord = false := ⟨_, _, rfl, rfl⟩
/-! ## Traps -/

/-- The package with its trap frames in the page at 0x10000. -/
def framed : State := s0.setPart 0 { s0.part 0 with tfBase := 0x10000, stvec := 0x10100 }

/-- A request of BRK. -/
def brk : TrapReq := ⟨.brk, 0, 0, 0x10000, 0x10000, false, false, false, none⟩

/-- A frame of a handler entered from S level. -/
def frame0 : TFrame := ⟨0x10000, .brk, .supervisor, true, 32, 32, 0, .all, 0, 0, 0, 0, []⟩

/-- Whether a line of the frame of a trap can be stored. -/
def framesB (s : State) (th : Thread) (r : TrapReq) (n : Nat) : Bool :=
  let fr := (s.part 0).tfBase + th.frames.length * 2048
  match s.frameCheck 0 0 fr true with
  | some s1 =>
    !s.frameWaits 0 0 (fr + 64 * n) 1 && (s1.frameStore 0 0 (fr + 64 * n)
      (((trapRecord r th th.frames.length ++ { th with pc := BitVec.ofNat 56 r.resume }.image 32 32).drop (64 * n)).take 64)).toOption.isSome
  | none => false

theorem wit_TrapEntry : sup.deferred = [] ∧ sup.settled = true ∧ (framed.core 0).mx = none ∧ framesB framed sup brk 0 = true ∧
    framesB framed sup brk 23 = true ∧ framesB framed { sup with frames := [frame0] } brk 23 = true ∧
    framesB framed sup { brk with completed := true } 0 = true := by decide +kernel
theorem wit_TrapEntry_double : 2 ≤ ({ sup with frames := [frame0, frame0] } : Thread).frames.length ∧
    ({ sup with frames := [frame0, frame0] } : Thread).completeAt .s = true := by decide
theorem wit_SystemInstructions_traps : Issues (.trap un 31 31) (on sup) sup ∧ Issues (.ebreak un) (on sup) sup ∧
    Issues (.eret un) (on sup) sup ∧ sup.frames = [] ∧ Issues (.sleep un) (on sup) sup ∧ sup.wait = .none :=
  ⟨issues_of rfl rfl, issues_of rfl rfl, issues_of rfl rfl, rfl, issues_of rfl rfl, rfl⟩

/-- Whether the image of a thread's newest frame can be read. -/
def returnsB (s : State) (th : Thread) : Bool :=
  match th.frames with
  | f :: _ =>
    match s.frameCheck 0 0 f.addr.toNat false with
    | some s1 => !s.frameWaits 0 0 (f.addr.toNat + 64 + th.reload.length) 1
        && (s1.frameLoad 0 0 (f.addr.toNat + 64 + th.reload.length)).toOption.isSome
    | none => false
  | [] => false

theorem wit_SystemInstructions_eret : Issues (.eret un) (on { sup with frames := [frame0] }) { sup with frames := [frame0] } ∧
    returnsB (on { sup with frames := [frame0] }) { sup with frames := [frame0] } = true := ⟨issues_of rfl rfl, by decide⟩

/-- A handler whose image has been reloaded. -/
def reloaded : Thread := { sup with frames := [frame0], reload := List.replicate 1472 0 }

theorem wit_SystemInstructions_reloaded : Issues (.eret un) (on reloaded) reloaded ∧
    160 + 8 * frame0.xcount + 32 * frame0.vcount ≤ reloaded.reload.length ∧ frame0.pending = [] ∧
    reloaded.preemptDue = false := ⟨issues_of rfl rfl, by decide +kernel, rfl, rfl⟩
theorem wit_SystemInstructions_csr : Issues (.csrr un 31 0 0) (on sup) sup ∧ csrDenied (on sup) sup 0 = false ∧
    (on sup).owesFlags 0 = false ∧ Issues (.csrw un 31 0 0) (on sup) sup ∧
    Issues (.csrr un 31 4 0) (on usr) usr ∧ csrDenied (on usr) usr (4 * 32 + 0) = true ∧
    (csrWrite (on sup) sup 0x085 (12 * 2 ^ 58 + 0x10000)).s1invOpen 0 (12 * 2 ^ 58 + 0x10000) = false :=
  ⟨issues_of rfl rfl, by decide, by decide, issues_of rfl rfl, issues_of rfl rfl, by decide, by decide +kernel⟩
theorem wit_ContextImage : (1 : Nat) ≤ 32 ∧ sup.pc.getLsbD 0 = false ∧ sup.lend.getLsbD 0 = false := by decide

/-! ## Memory -/

/-- Whether an access passes its checks, and what of them. -/
def reachB (i : Instr) (s : State) (th : Thread) (ea size align desc : Nat) (form : Form) (q : State → Checked → Bool) : Bool :=
  decide (th.wait = .none) && !th.overlapDeferred (s.reach ea) size && !th.overlapWait (s.reach ea) size &&
  match checkAccess s s.cur th i ea size align desc form with
  | .ok (t, c) => decide (t.migratesTo th c.va c.homerun form.writes = none) && decide (c.place ≠ .remote) && q t c
  | .error _ => false

theorem reaches_of {i : Instr} {s : State} {th : Thread} {ea size align desc : Nat} {form : Form} {q : State → Checked → Bool}
    (h : reachB i s th ea size align desc form q = true) :
    ∃ t c, Reaches i s th ea size align desc form t c ∧ q t c = true := by
  simp only [reachB, Bool.and_eq_true, Bool.not_eq_true', decide_eq_true_eq] at h
  obtain ⟨⟨⟨h1, h2⟩, h3⟩, h4⟩ := h
  split at h4
  · next t c hc =>
    simp only [Bool.and_eq_true, decide_eq_true_eq] at h4
    exact ⟨t, c, ⟨h1, h2, h3, hc, h4.1.1, h4.1.2⟩, h4.2⟩
  · cases h4

/-- A thread whose x1 holds the address of the page, of a tile window or of the private window. -/
def atPage : Thread := x1 0x10000
def atTile : Thread := x1 0x00FFFE0000000000

theorem wit_LoadsIssue : ∃ f d ea taint t c, loadOf (on atPage) atPage (.ld un .b false 31 1 (-128)) = some (f, d, ea, taint) ∧
    Issues (.ld un .b false 31 1 (-128)) (on atPage) atPage ∧
    Reaches (.ld un .b false 31 1 (-128)) (on atPage) atPage ea f.bytes f.bytes (loadDesc f d) .load t c := by
  obtain ⟨t, c, h, -⟩ := reaches_of (i := .ld un .b false 31 1 (-128)) (s := on atPage) (th := atPage) (ea := 0xFF80) (size := 1)
    (align := 1) (desc := loadDesc ⟨1, false, .plain, .t, false⟩ 31) (form := .load) (q := fun _ _ => true) (by decide)
  exact ⟨_, _, _, _, t, c, rfl, issues_of rfl rfl, h⟩
theorem wit_LoadsIssue_vector : ∃ t c, (0x10000 : Nat) = address (atPage.getX 1) (0 : BitVec 11) 32 ∧
    Issues (.vld un 31 1 0) (on atPage) atPage ∧
    Reaches (.vld un 31 1 0) (on atPage) atPage 0x10000 32 32 (descriptor 0 5 0 0 0 0 1 31 0 0 0) .vload t c := by
  obtain ⟨t, c, h, -⟩ := reaches_of (i := .vld un 31 1 0) (s := on atPage) (th := atPage) (ea := 0x10000) (size := 32)
    (align := 32) (desc := descriptor 0 5 0 0 0 0 1 31 0 0 0) (form := .vload) (q := fun _ _ => true) (by decide)
  exact ⟨t, c, by decide, issues_of rfl rfl, h⟩
theorem wit_StoresIssue : ∃ f ea x t c, storeOf (on atPage) atPage (.st un .d false 0 1 127) = some (f, ea, x) ∧
    Issues (.st un .d false 0 1 127) (on atPage) atPage ∧
    Reaches (.st un .d false 0 1 127) (on atPage) atPage ea f.bytes f.bytes (storeDesc f) .store t c ∧
    contourCheck (t.core 0).contours c.va (leBytes f.bytes (atPage.getX x).toNat) = ([], .pass 0) := by
  obtain ⟨t, c, h, h'⟩ := reaches_of (i := .st un .d false 0 1 127) (s := on atPage) (th := atPage) (ea := 0x103F8) (size := 8)
    (align := 8) (desc := storeDesc ⟨8, false, .plain, .t, [0], [], 0, 0⟩) (form := .store)
    (q := fun t c => decide (contourCheck (t.core 0).contours c.va (leBytes 8 0) = ([], .pass 0))) (by decide)
  exact ⟨_, _, _, t, c, rfl, issues_of rfl rfl, h, of_decide_eq_true h'⟩
theorem wit_StoresIssue_vector : ∃ t c, (0x10FE0 : Nat) = address (atPage.getX 1) (127 : BitVec 11) 32 ∧
    Issues (.vst un 31 1 127) (on atPage) atPage ∧
    Reaches (.vst un 31 1 127) (on atPage) atPage 0x10FE0 32 32 (descriptor 1 5 0 0 0 0 1 31 0 0 0) .vstore t c ∧
    contourCheck (t.core 0).contours c.va (leBytes 32 (atPage.getV 31).toNat) = ([], .pass 0) := by
  obtain ⟨t, c, h, h'⟩ := reaches_of (i := .vst un 31 1 127) (s := on atPage) (th := atPage) (ea := 0x10FE0) (size := 32)
    (align := 32) (desc := descriptor 1 5 0 0 0 0 1 31 0 0 0) (form := .vstore)
    (q := fun t c => decide (contourCheck (t.core 0).contours c.va (leBytes 32 0) = ([], .pass 0))) (by decide)
  exact ⟨t, c, by decide, issues_of rfl rfl, h, of_decide_eq_true h'⟩

/-- The package in which stores of i8 elements to the page trap when they are not 3. -/
def guarded (th : Thread) : State :=
  (on th).setCore 0 { (on th).core 0 with contours := [(0, ⟨0x10000, 0x11000, 3, 3, 0x09, 3, 0⟩)] }

theorem wit_StoresIssue_trap : ∃ t c n at_, Issues (.st un .b false 0 1 0) (guarded atPage) atPage ∧
    Reaches (.st un .b false 0 1 0) (guarded atPage) atPage 0x10000 1 1 (storeDesc ⟨1, false, .plain, .t, [0], [], 0, 0⟩)
      .store t c ∧ (contourCheck (t.core 0).contours c.va (leBytes 1 0)).2 = .trap n at_ := by
  obtain ⟨t, c, h, h'⟩ := reaches_of (i := .st un .b false 0 1 0) (s := guarded atPage) (th := atPage) (ea := 0x10000) (size := 1)
    (align := 1) (desc := storeDesc ⟨1, false, .plain, .t, [0], [], 0, 0⟩) (form := .store)
    (q := fun t c => decide ((contourCheck (t.core 0).contours c.va (leBytes 1 0)).2 = .trap 0 0x10000)) (by decide)
  exact ⟨t, c, 0, 0x10000, issues_of rfl rfl, h, of_decide_eq_true h'⟩
theorem wit_AtomicsIssue : ∃ t c, atomicOf (.aadd un .ar .s true 31 1 0) = some (0, .ar, .s, true, 31, 1, 0) ∧
    Issues (.aadd un .ar .s true 31 1 0) (on atPage) atPage ∧
    Reaches (.aadd un .ar .s true 31 1 0) (on atPage) atPage 0x10000 8 8
      (descriptor 2 3 1 (ordCode .ar) (scopeBits .ar (scopeOf .s)) 0 0 0 0 0 31) .atomic t c := by
  obtain ⟨t, c, h, -⟩ := reaches_of (i := .aadd un .ar .s true 31 1 0) (s := on atPage) (th := atPage) (ea := 0x10000) (size := 8)
    (align := 8) (desc := descriptor 2 3 1 (ordCode .ar) (scopeBits .ar (scopeOf .s)) 0 0 0 0 0 31) (form := .atomic)
    (q := fun _ _ => true) (by decide)
  exact ⟨t, c, rfl, issues_of rfl rfl, h⟩
theorem wit_AtomicsIssue_casq : ∃ t c, Issues (.acasq un .plain .p 30 1 30) (on atTile) atTile ∧
    Reaches (.acasq un .plain .p 30 1 30) (on atTile) atTile 0x00FFFE0000000000 16 16
      (descriptor 2 4 0 (ordCode .plain) (scopeBits .plain (scopeOf .p)) 0 0 30 0 0 30) .casq t c := by
  obtain ⟨t, c, h, -⟩ := reaches_of (i := .acasq un .plain .p 30 1 30) (s := on atTile) (th := atTile)
    (ea := 0x00FFFE0000000000) (size := 16) (align := 16)
    (desc := descriptor 2 4 0 (ordCode .plain) (scopeBits .plain (scopeOf .p)) 0 0 30 0 0 30) (form := .casq)
    (q := fun _ _ => true) (by decide)
  exact ⟨t, c, issues_of rfl rfl, h⟩
/-- A thread with one access. -/
def holds (a : Access) : Thread := { sup with acc := [a], nextId := 1 }

/-- The access that the conditions of AccessesPerform are about stands first. -/
def leads (a : Access) : Bool :=
  (on (holds a)).thread 0 == some (holds a) && (holds a).access a.id == some a && (holds a).before a == [] &&
    !a.lost && decide (0 < a.size)

/-- A load of a line, an atomic of a line and of a single place, each at the page. -/
def lineLoad : Access := { loading with va := 0x103F8, size := 8 }
def oneStore : Access := { storing with place := .single 0, size := 8 }
def lineAtomic : Access := { loading with op := .atomic 0 1 0, va := 0x10000, dst := .x 5 8 false false }
def oneAtomic : Access := { lineAtomic with place := .single (2 ^ 53 + 0x3FFF8) }

theorem wit_AccessesPerform_single_load : leads { loading with place := .single (2 ^ 53 - 8) } = true ∧ plainPlace (2 ^ 53 - 8) 8 :=
  ⟨by decide, by unfold plainPlace; decide⟩
/-- What a step on a line finds before it: its translation is there, and no interface has to be waited for. -/
def lineReady (s : State) (t : Nat) (th : Thread) (a : Access) : Bool :=
  !s.lacksXlate t th a && !s.hostWaits 0 (dieOfCore (coreOfKey t)) (lineOf a.va)

theorem wit_AccessesPerform_line_load : leads lineLoad = true ∧ (on (holds lineLoad)).l1Line 0 0 (lineOf 0x103F8) = none ∧
    ((on (holds lineLoad)).part 0).copyOf 0 (lineOf 0x103F8) = none ∧
    lineReady (on (holds lineLoad)) 0 (holds lineLoad) lineLoad = true ∧
    ∃ g, linePage (on (holds lineLoad)) 0 0 (lineOf 0x103F8) false = .ok g ∧ homeDie (g.place (lineOf 0x103F8)) = 0 ∧
      g.place (lineOf 0x103F8) < 2 ^ 40 ∧
      ((on (holds lineLoad)).homeData 0 (lineOf 0x103F8) (g.place (lineOf 0x103F8))).data.length = 64 ∧
      ((on (holds lineLoad)).homeData 0 (lineOf 0x103F8) (g.place (lineOf 0x103F8))).bad = false :=
  ⟨by decide, by decide, by decide, by decide, _, rfl, by decide, by decide, by decide, by decide⟩

/-- The package whose L1 of core 0 holds that line sealed, and the one whose die 0 holds a copy of it. -/
def cached : State :=
  (on (holds lineLoad)).setCore 0 { (on (holds lineLoad)).core 0 with
    l1 := [⟨0, 0x103C0, 0x103C0, List.replicate 64 9, true, false⟩] }
def mirrored : State :=
  (on (holds lineLoad)).setPart 0 { (on (holds lineLoad)).part 0 with
    copies := [⟨0, 0x103C0, 0x103C0, List.replicate 64 5, 0, true, false, false⟩] }

theorem wit_AccessesPerform_l1_load : cached.thread 0 = some (holds lineLoad) ∧
    (∃ l, (cached.l1Line 0 0 0x103C0).filter (fun l => l.isSealed || lineLoad.l1ok) = some l ∧ l.bad = false) ∧
    cached.hostWaits 0 0 0x103C0 = false := ⟨by decide, ⟨_, rfl, rfl⟩, by decide⟩
theorem wit_AccessesPerform_copy_load : mirrored.thread 0 = some (holds lineLoad) ∧ mirrored.l1Line 0 0 0x103C0 = none ∧
    lineReady mirrored 0 (holds lineLoad) lineLoad = true ∧ (∃ g, linePage mirrored 0 0 0x103C0 false = .ok g) ∧
    ∃ y, (mirrored.part 0).copyOf 0 0x103C0 = some y ∧ y.bad = false :=
  ⟨by decide, by decide, by decide, ⟨_, rfl⟩, _, rfl, rfl⟩

/-- A compare and swap of 16 bytes, and a vector load, of a cluster's tile store. -/
def oneCasq : Access := { loading with op := .casq 1 0, size := 16, dst := .pair 4 false, place := .single (tilePlace 0 0) }
def oneVector : Access := { loading with size := 32, dst := .v 3 0, place := .single (tilePlace 0 0) }

theorem wit_AccessesPerform_casq : leads oneCasq = true ∧ plainPlace (tilePlace 0 0) 16 ∧
    (on (holds oneCasq)).isPoisoned (tilePlace 0 0) = false := ⟨by decide, by unfold plainPlace; decide, by decide⟩
theorem wit_AccessesPerform_vector : leads oneVector = true ∧ plainPlace (tilePlace 0 0) 32 ∧
    (on (holds oneVector)).isPoisoned (tilePlace 0 0) = false := ⟨by decide, by unfold plainPlace; decide, by decide⟩
theorem wit_AccessesPerform_store : leads oneStore = true ∧ oneStore.size = oneStore.data.length ∧ plainPlace 0 8 :=
  ⟨by decide, rfl, by unfold plainPlace; decide⟩

/-- A store to the end of a line, and the package with its thread in slot 0 of a core. -/
def lineStore : Access := { storing with va := 0x10038, size := 8 }
def onCore (c : Nat) (th : Thread) : State :=
  (s0.setThread (4 * c) th).setPart 0 { s0.part 0 with
    xcache := (List.range 4).map fun sl => ⟨dieOfCore c, sl, 0x10000, 4096, 0x10000, true, false, 4⟩ }

theorem wit_AccessesPerform_line_store : (onCore 0 (holds lineStore)).thread 0 = some (holds lineStore) ∧
    (holds lineStore).before lineStore = [] ∧ lineReady (onCore 0 (holds lineStore)) 0 (holds lineStore) lineStore = true ∧
    ∃ g, linePage (onCore 0 (holds lineStore)) 0 0 0x10000 true = .ok g ∧ homeDie (g.place 0x10000) = 0 :=
  ⟨by decide, by decide, by decide, _, rfl, by decide⟩
theorem wit_AccessesPerform_copied_store : (onCore 1024 (holds lineStore)).thread 4096 = some (holds lineStore) ∧
    lineReady (onCore 1024 (holds lineStore)) 4096 (holds lineStore) lineStore = true ∧ dieOfCore 1024 ≠ controlDie ∧
    ∃ g, linePage (onCore 1024 (holds lineStore)) 0 (dieOfCore 1024) 0x10000 true = .ok g ∧
      homeDie (g.place 0x10000) ≠ dieOfCore 1024 := ⟨by decide, by decide, by decide, _, rfl, by decide⟩
theorem wit_AccessesPerform_single_atomic : leads oneAtomic = true ∧ plainPlace (2 ^ 53 + 0x3FFF8) 8 ∧
    (on (holds oneAtomic)).isPoisoned (2 ^ 53 + 0x3FFF8) = false := ⟨by decide, by unfold plainPlace; decide, by decide⟩

/-- The package whose page is an ATOM page. -/
def atoms (th : Thread) : State :=
  (on th).setPart 0 { (on th).part 0 with
    xcache := (List.range 4).map fun sl => ⟨0, sl, 0x10000, 4096, 0x10000, true, true, 4⟩ }
def pageAtomic : Access := { lineAtomic with place := .atom, atom := true }

theorem wit_AccessesPerform_atom_page : (holds pageAtomic).before pageAtomic = [] ∧
    (atoms (holds pageAtomic)).lacksXlate 0 (holds pageAtomic) pageAtomic = false ∧
    (atoms (holds pageAtomic)).hostWaits 0 0 0x10000 = false ∧
    ∃ g, translate (atoms (holds pageAtomic)) 0 0 0x10000 true = .ok g ∧ g.atom = true ∧ g.w = true ∧
      (atoms (holds pageAtomic)).isPoisoned (g.place 0x10000) = false :=
  ⟨by decide, by decide, by decide, _, rfl, rfl, rfl, by decide⟩
theorem wit_AccessesPerform_home : leads lineAtomic = true ∧ lineReady (on (holds lineAtomic)) 0 (holds lineAtomic) lineAtomic = true ∧
    (on (holds lineAtomic)).unreachable 0 0 0x10000 = false ∧ ((on (holds lineAtomic)).part 0).copyDies 0x10000 = [] ∧
    ∃ g, linePage (on (holds lineAtomic)) 0 0 0x10000 true = .ok g ∧
      ((on (holds lineAtomic)).homeData 0 0x10000 (lineOf (g.place 0x10000))).bad = false ∧
      ((on (holds lineAtomic)).homeData 0 0x10000 (lineOf (g.place 0x10000))).data.length = 64 :=
  ⟨by decide, by decide, by decide, by decide, _, rfl, by decide, by decide⟩

/-- That atomic, performed. -/
def performed : Access := { lineAtomic with state := .performed (leBytes 8 7) }

theorem wit_AccessesPerform_complete : leads performed = true ∧ (on (holds performed)).lacksXlate 0 (holds performed) performed = false ∧
    (on (holds performed)).unreachable 0 0 0x10000 = false := by decide

/-! ## Ordering, waiting and caches -/

theorem wit_Synchronisation_fence : Issues (.fence un .k) (on sup) sup ∧ ((on sup).core 0).fused = none :=
  ⟨issues_of rfl rfl, rfl⟩
theorem wit_Synchronisation_waitv : ∃ t x, Issues (.waitv un 1 0) (on atTile) atTile ∧
    Reaches (.waitv un 1 0) (on atTile) atTile 0x00FFFE0000000000 8 8 (descriptor 7 3 0 0 0 0 5 0 0 0 0) .waitv t x ∧
    x.place = .single (tilePlace 0 0) ∧ plainPlace (tilePlace 0 0) 8 ∧ (on atTile).loadWord (tilePlace 0 0) = atTile.getX 0 ∧
    (on atTile).loadWord (tilePlace 0 0) ≠ atTile.getX 1 ∧ atTile.parks = false := by
  obtain ⟨t, c, h, h'⟩ := reaches_of (i := .waitv un 1 0) (s := on atTile) (th := atTile) (ea := 0x00FFFE0000000000) (size := 8)
    (align := 8) (desc := descriptor 7 3 0 0 0 0 5 0 0 0 0) (form := .waitv)
    (q := fun _ c => decide (c.place = .single (tilePlace 0 0))) (by decide)
  exact ⟨t, c, issues_of rfl rfl, h, of_decide_eq_true h', by unfold plainPlace; decide, by decide, by decide, by decide⟩

/-- The package whose page tables map nothing. -/
def unmapped : State := (on atPage).setPart 0 { (on atPage).part 0 with xcache := [], s1root := 0 }

theorem wit_Synchronisation_waitv_line : ∃ t x pg, Issues (.waitv un 1 0) (on atPage) atPage ∧
    Reaches (.waitv un 1 0) (on atPage) atPage 0x10000 8 8 (descriptor 7 3 0 0 0 0 5 0 0 0 0) .waitv t x ∧ x.place = .line ∧
    t.hostWaits 0 0 x.va = false ∧ checkedPage t 0 0 x false = .ok pg := by
  obtain ⟨t, c, h, h'⟩ := reaches_of (i := .waitv un 1 0) (s := on atPage) (th := atPage) (ea := 0x10000) (size := 8)
    (align := 8) (desc := descriptor 7 3 0 0 0 0 5 0 0 0 0) (form := .waitv)
    (q := fun t c => decide (c.place = .line) && !t.hostWaits 0 0 c.va && (checkedPage t 0 0 c false).toOption.isSome) (by decide)
  simp only [Bool.and_eq_true, decide_eq_true_eq, Bool.not_eq_true'] at h'
  cases hp : checkedPage t 0 0 c false with
  | ok pg => exact ⟨t, c, pg, issues_of rfl rfl, h, h'.1.1, h'.1.2, hp⟩
  | error e => rw [hp] at h'; simp [Except.toOption] at h'
theorem wit_Synchronisation_waitv_refused : ∃ t x r, Issues (.waitv un 1 0) unmapped atPage ∧
    Reaches (.waitv un 1 0) unmapped atPage 0x10000 8 8 (descriptor 7 3 0 0 0 0 5 0 0 0 0) .waitv t x ∧ x.place = .line ∧
    t.hostWaits 0 0 x.va = false ∧ checkedPage t 0 0 x false = .error r := by
  obtain ⟨t, c, h, h'⟩ := reaches_of (i := .waitv un 1 0) (s := unmapped) (th := atPage) (ea := 0x10000) (size := 8)
    (align := 8) (desc := descriptor 7 3 0 0 0 0 5 0 0 0 0) (form := .waitv)
    (q := fun t c => decide (c.place = .line) && !t.hostWaits 0 0 c.va && (checkedPage t 0 0 c false).toOption.isNone)
    (by decide +kernel)
  simp only [Bool.and_eq_true, decide_eq_true_eq, Bool.not_eq_true'] at h'
  cases hp : checkedPage t 0 0 c false with
  | ok pg => rw [hp] at h'; simp [Except.toOption] at h'
  | error r => exact ⟨t, c, r, issues_of rfl rfl, h, h'.1.1, h'.1.2, hp⟩

/-- A thread whose x1 names another node. -/
def atNode : Thread := x1 0x8000400000000008

theorem wit_Synchronisation_waitv_node : Issues (.waitv un 1 0) (on atNode) atNode ∧
    (∃ t c, checkAccess (on atNode) 0 atNode (.waitv un 1 0) (atNode.getX 1).toNat 8 8 (descriptor 7 3 0 0 0 0 5 0 0 0 0) .waitv =
      .ok (t, c) ∧ t.migratesTo atNode c.va c.homerun false = none ∧ c.place = .remote) ∧
    atNode.overlapDeferred ((on atNode).reach (atNode.getX 1).toNat) 8 = false ∧
    atNode.overlapWait ((on atNode).reach (atNode.getX 1).toNat) 8 = false :=
  ⟨issues_of rfl rfl, ⟨_, _, rfl, rfl, rfl⟩, by decide, by decide⟩
theorem wit_Synchronisation_woken : Issues (.waitv un 1 0) (on { sup with wait := .woken }) { sup with wait := .woken } :=
  issues_of rfl rfl

/-- A gang thread at S level. -/
def member : Thread := { x1 1 with gang := some 0 }

/-- A gang of the first cluster. -/
def gang0 : Gang :=
  ⟨0, 0, 0x10000, .all, 0, [], 0, [0], [0], [], [], false, true, 0, 1, false, false, [], [], [], [], [], [], false⟩

/-- The package with a gang thread in slot 0 of core 0. -/
def ganged (th : Thread) : State := { on th with gangs := [(0, gang0)] }

theorem wit_Synchronisation_semp : usr.kind ≠ .gang ∧ resourceCheck { usr with kind := .gang } (uses (.semp un 3 1) usr) = none ∧
    Issues (.semp un 3 0) (on { usr with kind := .gang }) { usr with kind := .gang } ∧
    (({ usr with kind := .gang, x := usr.x.set 1 1 } : Thread).getX 1) ≠ 0 ∧
    Issues (.semp un 3 1) (on { usr with kind := .gang, x := usr.x.set 1 1 }) { usr with kind := .gang, x := usr.x.set 1 1 } ∧
    ((on usr).loadWord (windowPlace 0 (semOffset 3))).toNat < 1 :=
  ⟨by decide, by decide, issues_of rfl rfl, by decide, issues_of rfl rfl, by decide⟩
theorem wit_Synchronisation_semv : Issues (.semv un 0 0) (on { usr with kind := .gang }) { usr with kind := .gang } ∧
    ((on usr).core 0).semWait = [] := ⟨issues_of rfl rfl, rfl⟩

/-- A gang thread with a value in x1, and the package in which the thread of slot 1 waits for 2 of semaphore 3. -/
def adding1 (v : Word) : Thread := { usr with kind := .gang, x := usr.x.set 1 v }
def waiter1 : Thread := { usr with kind := .gang, wait := .sem 3 2 }
def semWaits (v : Word) : State :=
  let s := (on (adding1 v)).setThread 1 waiter1
  s.setCore 0 { s.core 0 with semWait := [(1, 3)] }

theorem wit_Synchronisation_semv_serves : Issues (.semv un 3 1) (semWaits 2) (adding1 2) ∧ (adding1 2).wait = .none ∧
    ((semWaits 2).core 0).semWait = (1, 3) :: [] ∧ (semWaits 2).thread 1 = some waiter1 ∧
    (2 : Word).toNat ≤ ((semWaits 2).loadWord (windowPlace 0 (semOffset 3)) + (adding1 2).getX 1).toNat ∧
    Issues (.semv un 3 1) (semWaits 1) (adding1 1) ∧
    ((semWaits 1).loadWord (windowPlace 0 (semOffset 3)) + (adding1 1).getX 1).toNat < (2 : Word).toNat :=
  ⟨issues_of rfl rfl, rfl, rfl, rfl, by decide, issues_of rfl rfl, by decide⟩

/-- A U-level gang thread that declares barrier channel 3, with a cluster mask in x1. -/
def gangU (m : Word) : Thread :=
  { usr with kind := .gang, gang := some 0, x := usr.x.set 1 m, hdr := { Header.all with barriers := 0xF } }

theorem wit_Synchronisation_barw : Issues (.barw un 3 2 1 0) (ganged (gangU 1)) (gangU 1) ∧
    (ganged (gangU 1)).gangs.find 0 = some gang0 ∧ (((gangU 1).getX 1).toNat &&& gang0.occupied).testBit (maskBit false 0) = true ∧
    Issues (.barw un 3 2 1 0) (ganged (gangU 0)) (gangU 0) ∧
    (((gangU 0).getX 1).toNat &&& gang0.occupied).testBit (maskBit false 0) = false :=
  ⟨issues_of rfl rfl, rfl, by decide, issues_of rfl rfl, by decide⟩
theorem wit_Synchronisation_barw_status : Issues (.barw un 0 2 1 0) (ganged { gangU 1 with wait := .status 2 })
    { gangU 1 with wait := .status 2 } := issues_of rfl rfl

/-- The package whose ring 3 has four slots, one of them filled. -/
def ringed : State := (on sup).setCluster 0 { (on sup).cluster 0 with rings := [(3, ⟨true, 3, 6, 0, 1, 3, 0, 1⟩)] }

theorem wit_Synchronisation_rings : Issues (.rwait un .filled 3 4) ringed sup ∧ (ringed.ringOf sup 3).en = true ∧
    (4 : Nat) ≤ (ringed.ringOf sup 3).slotm1 + 1 ∧ (ringed.ringOf sup 3).filled < 4 ∧ Issues (.rwait un .free 3 3) ringed sup ∧
    (3 : Nat) ≤ (ringed.ringOf sup 3).free ∧ Issues (.radv un .filled 3 1) ringed sup ∧ (1 : Nat) ≤ (ringed.ringOf sup 3).filled :=
  ⟨issues_of rfl rfl, by decide, by decide, by decide, issues_of rfl rfl, by decide, issues_of rfl rfl, by decide⟩
theorem wit_CachesAndContours_lines : nameOf (atPage.getX 1).toNat = .translated ∧
    (∃ e t, plbLookup (on atPage) 0 0 0 (atPage.getX 1).toNat = .ok (some e, t) ∧ e.rights.rd = true ∧ e.rights.atom = false ∧
      e.rights.x = true) ∧ Issues (.cwb un 1) (on atPage) atPage ∧ Issues (.cinv un 1) (on atPage) atPage ∧
    Issues (.iinv un 1) (on atPage) atPage ∧ Issues (.ifb un) (on atPage) atPage ∧
    (on atPage).unreachable 0 0 0x10000 = false :=
  ⟨by decide, ⟨_, _, rfl, rfl, rfl, rfl⟩, issues_of rfl rfl, issues_of rfl rfl, issues_of rfl rfl, issues_of rfl rfl, by decide⟩
theorem wit_CachesAndContours_window : nameOf (atTile.getX 1).toNat ≠ .translated ∧ Issues (.cwb un 1) (on atTile) atTile ∧
    Issues (.cinv un 1) (on atTile) atTile ∧ Issues (.iinv un 1) (on atTile) atTile :=
  ⟨by decide, issues_of rfl rfl, issues_of rfl rfl, issues_of rfl rfl⟩

/-- Whether a seal of the page's region would be recorded at once. -/
def sealsB (s : State) (th : Thread) (va : Nat) : Bool :=
  match sealRegion s th va with
  | .ok (t, e) =>
    let u := t.performBegun th.part e.base e.log2
    (u.pendingIn th.part e.base e.log2).isNone && !u.homePending th.part e.base e.log2
      && (t.pendingIn th.part e.base e.log2).isNone && !t.homePending th.part e.base e.log2
  | .error _ => false

theorem wit_CachesAndContours_seal : Issues (.sealR un 1) (on atPage) atPage ∧ sealsB (on atPage) atPage 0x10000 = true ∧
    Issues (.unsealR un 1) (on atPage) atPage := ⟨issues_of rfl rfl, by decide, issues_of rfl rfl⟩
theorem wit_CachesAndContours_contour : Issues (.ctset un 15 1) (on (x1 0x69)) (x1 0x69) ∧ ctlLegal ((x1 0x69).getX 1) = true ∧
    wbits ((x1 0x69).getX 1) 6 5 ≠ 0 ∧ boundAdmitted 0x09 ((x1 0x69).getE 2) = true ∧
    (boundValue 0x09 ((x1 0x69).getE 2)).cmp (boundValue 0x09 ((x1 0x69).getE 3)) ≤ 0 ∧
    Issues (.ctclr un 31 15) (on sup) sup :=
  ⟨issues_of rfl rfl, by decide, by decide, by decide, by decide, issues_of rfl rfl⟩

/-- A dirty and a clean copy of the page's first line. -/
def copied : State :=
  s0.setPart 0 { s0.part 0 with copies :=
    [⟨0, 0x10000, 0x10000, List.replicate 64 5, 1, true, false, false⟩,
      ⟨1, 0x10000, 0x10000, List.replicate 64 5, 0, true, false, false⟩] }

theorem wit_LinesAndTranslations_copies : (∃ y, (copied.part 0).copyOf 0 (lineOf 0x10000) = some y ∧ y.dirty ≠ 0 ∧
    copied.pkg.failedGroups.contains (y.pa / 2 ^ 35) = false ∧ y.data.length = 64 ∧ y.pa < 2 ^ 40 ∧
    (copied.part 0).proof.marked = [] ∧ (copied.homeData 0 (lineOf 0x10000) y.pa).data.length = 64) ∧
    ∃ y, (copied.part 0).copyOf 1 (lineOf 0x10000) = some y ∧ y.dirty = 0 :=
  ⟨⟨_, rfl, by decide, by decide, by decide, by decide, rfl, by decide⟩, _, rfl, rfl⟩

/-- The package with a domain descriptor at 0x10000 whose table, at 0x10010, covers everything with every right. -/
def regions : State :=
  let s := (s0.setPart 0 { s0.part 0 with domBase := 0x10000, s1root := 0x3000 }).setCore 0 { s0.core 0 with plb := [] }
  s.store 0x10000 (leBytes 8 0x10010 ++ leBytes 8 1 ++ leBytes 8 (56 * 64) ++ leBytes 8 0x1F)

theorem wit_LinesAndTranslations_plb : regions.ownerOfGranule (granuleOfCore 0) = some 0 ∧
    (regions.core 0).plb.find? (·.covers 0 0 0x20000) = none ∧
    ∃ b n r, regionFor regions 0 (dieOfCore 0) 0 0x20000 = .ok (some (b, n, r)) := ⟨by decide, by decide, _, _, _, rfl⟩

/-- A page table of five levels whose leaf maps the page at 0 to itself. -/
def tables : State :=
  let s := s0.setPart 0 { s0.part 0 with s1root := 0x1000, stage2 := [0] }
  (((((s.store 0x1000 (leBytes 8 0x2001)).store 0x2000 (leBytes 8 0x3001)).store 0x3000 (leBytes 8 0x4001)).store 0x4000
    (leBytes 8 0x5001)).store 0x5000 (leBytes 8 7))


/-- The same with a load, or a store to a read-only page, that waits for the walk. -/
def walking (a : Access) (leaf : Nat) : State := (tables.store 0x5000 (leBytes 8 leaf)).setThread 0 (holds a)
def lowLoad : Access := { loading with va := 0x40 }
def lowStore : Access := { storing with va := 0x40 }

theorem wit_LinesAndTranslations_walk : (walking lowLoad 7).walkFor 0 0 0x40 = some lowLoad ∧
    ((walk (walking lowLoad 7) 0 0x40 false).toOption.any fun g => (lowLoad.verdict (.ok g)).isNone) = true := by decide +kernel
theorem wit_LinesAndTranslations_refused : (walking lowStore 3).walkFor 0 0 0x40 = some lowStore ∧
    (lowStore.verdict (walk (walking lowStore 3) 0 0x40 true)).isSome = true := by decide +kernel
theorem wit_LinesAndTranslations_host : (List.replicate 1 (7 : Byte)).length ≤ 64 - 63 % 64 ∧
    s0.pkg.failedGroups = [] ∧ (s0.part 0).proof.marked = [] := by decide
theorem wit_RemoteAccesses_answers : Issues (.rld un .b 31 0) (on { sup with wait := .value 1 0 }) { sup with wait := .value 1 0 } ∧
    Issues (.rst un .d 0 31) (on { sup with wait := .refused 8 }) { sup with wait := .refused 8 } :=
  ⟨issues_of rfl rfl, issues_of rfl rfl⟩
theorem wit_RemoteAccesses_here : ∃ t c, Issues (.rld un .d 31 1) (on atTile) atTile ∧
    Reaches (.rld un .d 31 1) (on atTile) atTile 0x00FFFE0000000000 8 8 (rldDesc 8 31) .load t c ∧
    c.place = .single (tilePlace 0 0) ∧ plainPlace (tilePlace 0 0) 8 ∧ atTile.touches c.va 8 = false ∧ atTile.parks = false ∧
    (on atTile).isPoisoned (tilePlace 0 0) = false := by
  obtain ⟨t, c, h, h'⟩ := reaches_of (i := .rld un .d 31 1) (s := on atTile) (th := atTile) (ea := 0x00FFFE0000000000) (size := 8)
    (align := 8) (desc := rldDesc 8 31) (form := .load)
    (q := fun _ c => decide (c.place = .single (tilePlace 0 0)) && !atTile.touches c.va 8) (by decide)
  simp only [Bool.and_eq_true, decide_eq_true_eq, Bool.not_eq_true'] at h'
  exact ⟨t, c, issues_of rfl rfl, h, h'.1, by unfold plainPlace; decide, h'.2, by decide, by decide⟩
theorem wit_RemoteAccesses_store : ∃ t c, Issues (.rst un .b 1 31) (on atTile) atTile ∧
    Reaches (.rst un .b 1 31) (on atTile) atTile 0x00FFFE0000000000 1 1 (descriptor 1 0 0 0 0 0 0 31 0 0 0) .store t c ∧
    c.place = .single (tilePlace 0 0) ∧ ((on atTile).core 0).contours = [] := by
  obtain ⟨t, c, h, h'⟩ := reaches_of (i := .rst un .b 1 31) (s := on atTile) (th := atTile) (ea := 0x00FFFE0000000000) (size := 1)
    (align := 1) (desc := descriptor 1 0 0 0 0 0 0 31 0 0 0) (form := .store)
    (q := fun _ c => decide (c.place = .single (tilePlace 0 0))) (by decide)
  exact ⟨t, c, issues_of rfl rfl, h, of_decide_eq_true h', rfl⟩
theorem wit_RemoteAccesses_node : Issues (.rld un .w 31 1) (on (x1 0x8000400000000004)) (x1 0x8000400000000004) ∧
    nameOf ((x1 0x8000400000000004).getX 1).toNat = .fabric 1 4 ∧ (1 : Nat) ≠ (on sup).pkg.node ∧ (on sup).freeTag 0 = some 0 ∧
    ((on sup).core 0).injUsed < 16 ∧ (x1 0x8000400000000004).parks = false :=
  ⟨issues_of rfl rfl, by decide, by decide, by decide, by decide, rfl⟩
theorem wit_RemoteAccesses_future : ∃ t c, Issues (.rldF un .d 31 1) (on atPage) atPage ∧
    Reaches (.rldF un .d 31 1) (on atPage) atPage 0x10000 8 8 (rldDesc 8 31) .load t c ∧ t.served 0 0 0 0 = true := by
  obtain ⟨t, c, h, h'⟩ := reaches_of (i := .rldF un .d 31 1) (s := on atPage) (th := atPage) (ea := 0x10000) (size := 8)
    (align := 8) (desc := rldDesc 8 31) (form := .load) (q := fun t _ => t.served 0 0 0 0) (by decide)
  exact ⟨t, c, issues_of rfl rfl, h, h'⟩

/-! ## Matrix instructions -/

/-- A thread with the window of the CLS in x1 and a plane stride of 256 in x2, on a core with four CLS banks. -/
def striding : Thread := { x1 0x00FFFF0000000000 with x := (x1 0x00FFFF0000000000).x.set 2 256 }
def banked : State := (on striding).setCore 0 { (on striding).core 0 with clsNow := 4 }

/-- Whether every granule of A passes its checks. -/
def capturesB (s : State) (th : Thread) (i : Instr) (pair : Fin 22) (u la : Bool) (base b : Word) : Bool :=
  (granulesOf (if 15 ≤ pair.val then
      (List.range (pairPlanes pair.val)).map fun j => (base.toNat + j * b.toNat, 256)
    else [(base.toNat, operandBytes pair.val (pairFmtA pair.val u))])).all fun x => (captureCheck s th i la x).isNone

theorem wit_MatrixIssue_mm : Issues (.mm un 3 0 false true 0 0 4) (on sup) sup ∧ ((on sup).core 0).mx = none ∧
    ((on sup).core 0).passOut = [] ∧
    capturesB (on sup) sup (.mm un 3 0 false true 0 0 4) 3 false true (BitVec.ofNat 64 (windowBase + latchOffset false)) 0 = true :=
  ⟨issues_of rfl rfl, rfl, rfl, by decide⟩
theorem wit_MatrixIssue_planes : Issues (.mm un 21 0 false false 1 2 0) banked striding ∧ (striding.getX 2).toNat % 4 = 0 ∧
    256 ≤ (striding.getX 2).toNat ∧
    capturesB banked striding (.mm un 21 0 false false 1 2 0) 21 false false (striding.getX 1) (striding.getX 2) = true ∧
    captureCheck banked striding (.mm un 21 0 false false 1 2 0) false (striding.getX 1).toNat = none :=
  ⟨issues_of rfl rfl, by decide, by decide, by decide, by decide⟩

/-- A gang thread that declares the torus, on a core whose latches are full. -/
def torusU : Thread := { usr with kind := .gang, gang := some 0, hdr := { Header.all with torus := true } }
def latched : State := (on torusU).setCore 0 { (on torusU).core 0 with tfullA := true, tfullB := true }

theorem wit_MatrixIssue_mmr : Issues (.mmr un 14 3 false 0 0) latched torusU ∧ (latched.core 0).tfullA = true ∧
    (latched.core 0).tfullB = true ∧ (latched.core 0).passOut = [] := ⟨issues_of rfl rfl, rfl, rfl, rfl⟩
theorem wit_MatrixIssue_latch : Issues (.latchA un 1) (on atPage) atPage ∧
    (bulkReads (.latchA un 1) atPage 0x10000 (fun n => granuleDesc 4 3 0 0 n) (fun n => .latch false (64 * n)) false
      (List.range 32) (on atPage)).toOption.map (fun x => x.2.2.isNone) = some true ∧ ((on atPage).core 0).latchJob = [] ∧
    atPage.overlapDeferred 0x10000 (64 * 32) = false ∧ atPage.overlapWait 0x10000 (64 * 32) = false :=
  ⟨issues_of rfl rfl, by decide, rfl, by decide, by decide⟩
theorem wit_MatrixIssue_zld : Issues (.zld un 3 1 0x15) (on atPage) atPage ∧
    (bulkReads (.zld un 3 1 0x15) atPage 0x10000 (fun n => granuleDesc 5 2 3 0x15 n) (fun n => .unit (64 * n)) false
      (List.range (2 * fmtWidth 0x15)) (on atPage)).toOption.map (fun x => x.2.2.isNone) = some true :=
  ⟨issues_of rfl rfl, by decide⟩
theorem wit_MatrixIssue_zst : Issues (.zst un 3 1 0x15) (on atPage) atPage ∧
    (let r := zstCheck (.zst un 3 1 0x15) atPage 3 0x15
      (zstGranules 0x10000 (packBytes 32 ((on atPage).tile 0 3)) []) (on atPage)
     r.stop.isNone && r.move.isNone && (zstWalks 0 atPage r.accs r.s).2.2.isNone) = true :=
  ⟨issues_of rfl rfl, by decide +kernel⟩
theorem wit_MatrixIssue_zclr : Issues (.zclr un 3) (on sup) sup ∧ ((on sup).core 0).mx = none ∧ ((on sup).core 0).passOut = [] :=
  ⟨issues_of rfl rfl, rfl, rfl⟩

/-- The core's unit with a multiply that has what it needs, its latch with a LATCH that has arrived, or with a pass due. -/
def working : State :=
  (on sup).setCore 0 { (on sup).core 0 with
    mx := some ⟨.mm 14 3 false (latchOffset false) 0, some 0, [], 0, [], false⟩, latchJob := [(true, 0)]
    passOut := [(true, List.range 32, List.replicate 2048 1)] }

theorem wit_MatrixUnit : (∃ j, (working.core 0).mx = some j ∧ j.need ≤ j.got.length ∧ j.slot = some 0) ∧
    working.thread (0 * 4 + 0) = some sup ∧ (working.core 0).latchJob = [(true, 0)] ∧ sup.latched true = true ∧
    (∃ bs, (working.core 0).passOut.find? (·.1 == true) = some (true, List.range 32, bs) ∧ bs.length = 2048) ∧
    (∀ n ∈ List.range 32, n < 32) ∧ (working.core (passTarget 0 true)).tfull true = false ∧ passTarget 0 true ≠ 0 :=
  ⟨⟨_, rfl, by decide, rfl⟩, by decide, rfl, by decide, ⟨_, rfl, List.length_replicate⟩, by decide, by decide, by decide⟩
theorem wit_MatrixUnit_pass : [(true, [31], List.replicate 2048 (1 : Byte))].find? (·.1 == true) =
    some (true, [31], List.replicate 2048 1) ∧ ([31] : List Nat).length ≠ 32 := ⟨rfl, by decide⟩
theorem wit_MatrixUnit_formats : zstFormats.contains 0x05 = true ∧ zstFormats.contains 0x0C = true ∧ zstFormats.contains 0x01 = true ∧
    ((floatFmt 0x05).any fun f => !f.ieee) = true ∧ (List.replicate 1024 0).length = 1024 ∧ (21 : Nat) < 22 :=
  ⟨rfl, rfl, rfl, rfl, List.length_replicate, by decide⟩

/-! ## Tasks and futures -/

/-- A thread with a value in x1 and one in x2. -/
def x12 (v w : Word) : Thread := { x1 v with x := (x1 v).x.set 2 w }

theorem wit_TaskInstructions_spawn : Issues (.spawn un false true true true 31 1 2) (on (x12 0x10000 1)) (x12 0x10000 1) ∧
    ((x12 0x10000 1).getX 1).toNat % 8 = 0 ∧ ((x12 0x10000 1).getX 1).toNat < 2 ^ 56 ∧ wbits ((x12 0x10000 1).getX 2) 15 0 ≠ 0 ∧
    (on (x12 0x10000 1)).served 0 0 0 1 = true := ⟨issues_of rfl rfl, by decide, by decide, by decide, by decide⟩
theorem wit_TaskInstructions_spawn_ready : Issues (.spawn un false false false false 31 1 2) (on (x12 0x10000 0)) (x12 0x10000 0) ∧
    wbits ((x12 0x10000 0).getX 2) 15 0 = 0 ∧ wbits ((x12 0x10000 0).getX 2) 18 18 = 0 ∧
    (on (x12 0x10000 0)).served 0 0 0 1 = true := ⟨issues_of rfl rfl, by decide, by decide, by decide⟩
theorem wit_TaskInstructions_glaunch : Issues (.glaunch un 31 1 2) (on (x12 0x10000 0x200000000000000))
    (x12 0x10000 0x200000000000000) ∧ wbits ((x12 0x10000 0x200000000000000).getX 2) 63 56 = 2 ∧
    (on (x12 0x10000 0x200000000000000)).served 0 0 0 2 = true := ⟨issues_of rfl rfl, by decide, by decide⟩
theorem wit_TaskInstructions_send : Issues (.send un 31 1 2) (on (x12 0x800000001 0x10000)) (x12 0x800000001 0x10000) ∧
    Issues (.sendc un 31 1) (on (x12 0x400000001 0)) (x12 0x400000001 0) ∧
    (on sup).deliverable 0 (wbits ((x12 0x800000001 0x10000).getX 1) 31 0) = true ∧ wbits ((x12 0x800000001 0x10000).getX 1) 47 47 = 0 ∧
    wbits ((x12 0x800000001 0x10000).getX 1) 35 32 = 8 ∧ ((on sup).core 0).injUsed = 0 ∧ (on sup).pkg.node < 2 ^ 17 ∧
    ((on sup).part 0).pgen < 16 ∧ (liveCode (sup.getE 4) (sup.getE 5)).all (fun w => (codeInstr w).isSome) = true :=
  ⟨issues_of rfl rfl, issues_of rfl rfl, by decide, by decide, by decide, by decide, by decide, by decide, by decide⟩

/-- A thread that hands a COPY of nothing to the copier of cluster 0. -/
def copying : Thread := x1 (BitVec.ofNat 64 (3 * 2 ^ 40 + 2 ^ 32 + 8192))

theorem wit_TaskInstructions_eng : Issues (.eng un 31 1) (on copying) copying ∧
    engineOf (endLocal (wbits (copying.getX 1) 31 0)) = some .copier ∧ endNode (wbits (copying.getX 1) 31 0) = (on sup).pkg.node ∧
    engineWords .copier (wbits (copying.getX 1) 39 32) = some (wbits (copying.getX 1) 43 40) ∧
    (on copying).engineIn 0 .copier 8192 = true ∧
    (rangeChecks 0 copying (on copying) (engRanges .copier 1 fun i => ((copying.e.toList[i]?).getD 0).toNat)).toOption.isSome = true ∧
    (on copying).served 0 0 0 0 = true := ⟨issues_of rfl rfl, rfl, rfl, rfl, by decide, by decide, by decide⟩
theorem wit_TaskInstructions_yield : Issues (.yield un) (on sup) sup ∧ sup.parks = false ∧ sup.wait = .none :=
  ⟨issues_of rfl rfl, rfl, rfl⟩

/-- A task of partition 0, and a task thread that can park in cluster 0. -/
def task0 : Task :=
  ⟨0x10000, [], [], 0, false, false, false, 1, 0, 0, 0, 0, .running, none, some .all, 0, 0, 0, none, [],
    [], false⟩
def parking : Thread := { usr with task := some (0, 0) }
def roomy (th : Thread) : State := (on th).setCluster 0 { (on th).cluster 0 with parkArea := 1024, tasks := [(0, task0)] }

theorem wit_TaskInstructions_park : Issues (.yield un) (roomy parking) parking ∧ parking.parks = true ∧
    ParkAreaFits (roomy parking) 0 ∧ ∃ k, (roomy parking).parkRoom 0 parking = some k ∧ (k.cluster 0).tasks.find 0 = some task0 :=
  ⟨issues_of rfl rfl, rfl, ⟨by decide, by decide⟩, _, rfl, rfl⟩

/-- The same thread, which can park, with the tile store's address in x1. -/
def parkTile : Thread := { parking with x := parking.x.set 1 0x00FFFE0000000000 }

theorem wit_Synchronisation_waitv_parks : ∃ t x, Issues (.waitv un 1 0) (roomy parkTile) parkTile ∧
    Reaches (.waitv un 1 0) (roomy parkTile) parkTile 0x00FFFE0000000000 8 8 (descriptor 7 3 0 0 0 0 5 0 0 0 0) .waitv t x ∧
    x.place = .single (tilePlace 0 0) ∧ (roomy parkTile).loadWord (tilePlace 0 0) = parkTile.getX 0 ∧ parkTile.parks = true ∧
    parkTile.task = some (0, 0) ∧ (t.core 0).mx = none ∧ ParkAreaFits t 0 ∧
    ((t.parkRoom 0 parkTile).any fun k => (k.cluster 0).tasks.find 0 == some task0) = true := by
  obtain ⟨t, c, h, h'⟩ := reaches_of (i := .waitv un 1 0) (s := roomy parkTile) (th := parkTile) (ea := 0x00FFFE0000000000)
    (size := 8) (align := 8) (desc := descriptor 7 3 0 0 0 0 5 0 0 0 0) (form := .waitv)
    (q := fun t c => decide (c.place = .single (tilePlace 0 0)) && decide ((t.core 0).mx = none)
      && decide (0 < 384 ∧ (t.cluster 0).ringArea + (t.cluster 0).parkArea ≤ 1024)
      && (t.parkRoom 0 parkTile).any fun k => (k.cluster 0).tasks.find 0 == some task0) (by decide)
  simp only [Bool.and_eq_true, decide_eq_true_eq] at h'
  exact ⟨t, c, issues_of rfl rfl, h, h'.1.1.1, by decide, rfl, rfl, h'.1.1.2, h'.1.2, h'.2⟩

/-- The same task thread on a cluster whose ring 3 has four slots, none of them filled. -/
def ringPark : State := (roomy parking).setCluster 0 { (roomy parking).cluster 0 with rings := [(3, ⟨true, 3, 6, 0, 0, 4, 0, 0⟩)] }

theorem wit_Synchronisation_rwait_parks : Issues (.rwait un .filled 3 1) ringPark parking ∧ (ringPark.ringOf parking 3).en = true ∧
    (1 : Nat) ≤ (ringPark.ringOf parking 3).slotm1 + 1 ∧ (ringPark.ringOf parking 3).filled < 1 ∧ parking.parks = true ∧
    ParkAreaFits ringPark 0 ∧ ∃ k, ringPark.parkRoom 0 parking = some k ∧ (k.cluster 0).tasks.find 0 = some task0 :=
  ⟨issues_of rfl rfl, rfl, by decide, by decide, rfl, ⟨by decide, by decide⟩, _, rfl, rfl⟩

/-- The package with the header of a task that can run inline before 0x10090, and an earlier stall that the free entries would
serve. -/
def inlining : State :=
  let s := (regions.setThread 0 (x12 0x10090 0)).store 0x10080 (leBytes 8 (0x5A36000000000000 + 9 * 2 ^ 34))
  s.setCluster 0 { s.cluster 0 with stalls := [(4, 1, 0)] }

theorem wit_TaskInstructions_inline : Issues (.spawn un true true false true 31 1 2) inlining (x12 0x10090 0) ∧
    (x12 0x10090 0).wait ≠ .alloc ∧ inlining.served 0 0 0 1 = false ∧ inlining.headerWaits 0 0 0 0x10090 = false ∧
    inlining.inlineOk (x12 0x10090 0) ((x12 0x10090 0).getX 1) ((x12 0x10090 0).getX 2) = true ∧
    rsValid (x12 0x10090 0).rs[6] = false ∧ rsValid (x12 0x10090 0).rs[7] = false :=
  ⟨issues_of rfl rfl, by decide, by decide, by decide, by decide, rfl, rfl⟩
theorem wit_TaskInstructions_return : Issues (.texit un) (on { sup with rs := (sup.rs.set 0 1).set 1 0x20001 })
    { sup with rs := (sup.rs.set 0 1).set 1 0x20001 } ∧ sup.slotWaits 0 sup.spilld.toNat = false :=
  ⟨issues_of rfl rfl, by decide⟩

/-- Threads that end: a task with a frame and a span of CLS, a handler, a thread of a gang, and a supervisor inside a trap
handler that began in a task. -/
def endTask : Thread := { usr with future := 32, task := some (0, 0), frameAt := some (0, 0), ownOff := 0, ownLen := 2 }
def endHandler : Thread := { usr with kind := .handler, future := 32 }
def endGang : Thread := { usr with kind := .gang, gang := some 0 }
def endTrap : Thread := { sup with future := 32, frames := [{ frame0 with kind := .task, ppriv := false }] }

/-- Whether a TEXIT of a thread ends it. -/
def endsB (s : State) (th : Thread) : Bool :=
  issuesB (.texit un) s th && !th.slotWaits 0 th.spilld.toNat && (s.belowSentinel th 41).isNone && th.completeAt .s
    && decide ((s.core 0).mx = none ∧ (s.core 0).clsNow = (s.core 0).clsSplit)

theorem wit_TaskInstructions_texit : endsB (roomy endTask) endTask = true ∧ endTask.frames = [] ∧ endTask.future ≠ 0 ∧
    handleNode endTask.future = (roomy endTask).pkg.node ∧ endsB (on endHandler) endHandler = true ∧
    endsB (ganged endGang) endGang = true ∧ (ganged endGang).gangs.find 0 = some gang0 ∧ gang0.live ≤ 1 ∧
    2 ≤ ({ gang0 with live := 2 } : Gang).live ∧ endsB (on sup) sup = true := by decide
theorem wit_TaskInstructions_texit_trap : endsB (on endTrap) endTrap = true ∧
    endTrap.frames.getLast? = some { frame0 with kind := .task, ppriv := false } := by decide

/-- The package whose future of slot 0 of cluster 0 is in a state. -/
def holding (st : FState) : State :=
  (on (x1 32)).setCluster 0 { (on (x1 32)).cluster 0 with
    futures := [(0, ⟨1, 0, st, 9, 0, false, false, .none, [], none, 0⟩)] }

/-- The same with the thread a task thread that can park. -/
def parking32 : Thread := { parking with x := parking.x.set 1 32 }
def parkable : State :=
  (roomy parking32).setCluster 0 { (roomy parking32).cluster 0 with
    futures := [(0, ⟨1, 0, .pending, 9, 0, false, false, .none, [], none, 0⟩)] }

theorem wit_FutureInstructions_park : Issues (.touch un 31 1) parkable parking32 ∧ parking32.parks = true ∧
    parkable.recordRoom 0 (parking32.waiter 0) = parkable ∧ ParkAreaFits parkable 0 ∧
    (parkable.parkRoom 0 parking32).isSome = true :=
  ⟨issues_of rfl rfl, rfl, rfl, ⟨by decide, by decide⟩, rfl⟩

/-- Cluster 0 with the record of a RESOLVED entry in its spill area, and with a spill area that no page maps. -/
def spilled (base : Nat) : State :=
  (on (x1 32)).setCluster 0 { (on (x1 32)).cluster 0 with
    fspillBase := base, fspillSize := 1, spills := [⟨0, 1, 0, 0, true, false⟩] }

theorem wit_FutureInstructions_spilled : ((spilled 0x10000).cluster 0).futRef 32 = .spilled ⟨0, 1, 0, 0, true, false⟩ ∧
    ((spilled 0x10000).refetch 0 ⟨0, 1, 0, 0, true, false⟩).isSome = true ∧
    (spilled (2 ^ 45)).refetch 0 ⟨0, 1, 0, 0, true, false⟩ = none := by decide

/-- The same of an engine command, and that command. -/
def commanded : State :=
  (on (x1 32)).setCluster 0 { (on (x1 32)).cluster 0 with
    futures := [(0, ⟨1, 0, .pending, 9, 0, false, false, .command, [], none, 0⟩)] }
def cancelling : Thread := { x1 32 with wait := .answer .cancelled 0 1 }

theorem wit_FutureInstructions_fcan : commanded.ofCommand 32 = true ∧ (holding .pending).ofCommand 32 = false ∧
    Issues (.fcan un 31 1) commanded (x1 32) ∧ Issues (.fcan un 31 1) (on cancelling) cancelling ∧
    (on cancelling).cancelWaits 32 = false := ⟨rfl, rfl, issues_of rfl rfl, issues_of rfl rfl, rfl⟩
theorem wit_FutureInstructions_command : (holding .pending).commandRuns 32 = false ∧ (holding .pending).freeTag 0 = some 0 ∧
    handleNode (2 ^ 47 + 32) ≠ (on sup).pkg.node := by decide
theorem wit_FutureInstructions : (holding .pending).badHandle (x1 32) ((x1 32).getX 1) = false ∧
    handleNode ((x1 32).getX 1) = (holding .pending).pkg.node ∧
    (∀ st ∈ [FState.pending, .resolved, .poisoned, .cancelled], ∃ e, ((holding st).cluster 0).futRef ((x1 32).getX 1) = .live e ∧
      e.state = st) ∧ ((on (x1 32)).cluster 0).futRef ((x1 32).getX 1) = .stale ∧ (x1 32).parks = false :=
  ⟨by decide, by decide, by
    intro st h; simp only [List.mem_cons, List.not_mem_nil, or_false] at h
    rcases h with rfl | rfl | rfl | rfl <;> exact ⟨_, rfl, rfl⟩, rfl, rfl⟩
theorem wit_FutureInstructions_issue : Issues (.touch un 31 1) (holding .pending) (x1 32) ∧ Issues (.cTouch 31 1) (holding .resolved) (x1 32) ∧
    Issues (.touchQ un 30 1) (holding .poisoned) (x1 32) ∧ Issues (.ftest un 7 1) (holding .cancelled) (x1 32) ∧
    Issues (.resolve un 31 1 0) (holding .pending) (x1 32) ∧ Issues (.poison un 31 1 0) (holding .pending) (x1 32) ∧
    Issues (.fcan un 31 1) (holding .pending) (x1 32) ∧ Issues (.frel un 1) (holding .resolved) (x1 32) ∧
    Issues (.fdec un 1) (holding .pending) (x1 32) :=
  ⟨issues_of rfl rfl, issues_of rfl rfl, issues_of rfl rfl, issues_of rfl rfl, issues_of rfl rfl, issues_of rfl rfl,
    issues_of rfl rfl, issues_of rfl rfl, issues_of rfl rfl⟩

/-! ## Traps, sleep and barriers -/

theorem wit_TrapsOfTheMachine_held : (on { sup with trap := some brk }).thread 0 = some { sup with trap := some brk } ∧
    ({ sup with trap := some brk } : Thread).settled = true ∧ sup.deferred = [] ∧ ((on sup).core 0).mx = none := by decide

/-- The package in which a performed access has lost its page to stage 2, 2²⁰ cycles after it stuck. -/
def gone : Access := { performed with va := 0x40 }
def lost : Thread := { holds gone with stuck := some (0x10000, 0) }
def losing : State :=
  let s := tables.setPart 0 { tables.part 0 with stage2 := [0, 0x10000], s2refused := [1] }
  { (s.store 0x5000 (leBytes 8 0x10007)).setThread 0 lost with now := 1048576 }

theorem wit_TrapsOfTheMachine_acklost : lost.trap = none ∧ lost.stuck = some (lost.pc.toNat, 0) ∧ 0 + 1048576 ≤ losing.now ∧
    (lost.acc.filter (·.id != 0)).all Access.isSettled = true ∧ lost.access 0 = some gone ∧ losing.unreachable 0 0 0x40 = true ∧
    ({ gone with state := .issued, lost := true } : Access).lost = true ∧
    ({ lost with wset := [(0x40, 0x10000)], acc := [] } : Thread).settled = true ∧
    ({ lost with wset := [(0x40, 0x10000)], acc := [] } : Thread).wset.find? (·.1 == 0x40) = some (0x40, 0x10000) := by
  decide +kernel
theorem wit_TrapsOfTheMachine_preempt : usr.trap = none ∧ usr.wait = .none ∧ usr.supervisor = false ∧ usr.kind = .task ∧
    (1 : Nat) ≠ 0 ∧ 1 * 65536 ≤ ({ on usr with now := 65536 } : State).now - usr.held := by decide
theorem wit_TrapsOfTheMachine_mcheck : (on sup).supervisorSlot 0 = some 0 ∧ sup.frames = [] ∧ sup.trap = none := by decide

/-- Cluster 0 with every thread stalled, for 16,384 cycles. -/
def stalled : State :=
  { (on { sup with wait := .alloc }).setCluster 0 { s0.cluster 0 with stalls := [(0, 0, 0)] } with now := 16384 }

theorem wit_TrapsOfTheMachine_exhaust : (clusterSlots 0).all stalled.quiet = true ∧ stalled.windowStart 0 + 16384 ≤ stalled.now ∧
    (stalled.cluster 0).lastStall = some 0 := by decide
theorem wit_SleepAndBarriers_sleep : ({ sup with wait := .sleep 0 } : Thread).wait = .sleep 0 ∧ 0 + 65536 ≤ (65536 : Nat) ∧
    ((on sup).core 1).killed = false ∧ (∀ j : Nat, j < 4 → (on sup).slotActive (1 * 4 + j) = false) ∧
    (({ s0.core 0 with depth := 3 } : Core).depth ≠ 0) := by decide

/-- A gang thread that has arrived at channel 3, or not yet. -/
def arrived (a wd : Bool) : Thread := { gangU 1 with wait := .barrier 3 1 0 5 a 0 wd 2 false }

theorem wit_SleepAndBarriers_barrier : (ganged (arrived false false)).gangs.find 0 = some gang0 ∧
    ((ganged (arrived false false)).barriers.find (0 * 4 + 3)).getD ⟨1, []⟩ = ⟨1, []⟩ ∧
    gang0.participants 1 ≤ ([] : List Nat).length + 1 ∧ 1 < ({ gang0 with slots := [0, 4] } : Gang).participants 1 ∧
    (5 : Nat) ≠ 0 ∧ 0 + 5 ≤ (5 : Nat) := by decide
theorem wit_SleepAndBarriers_withdrawn : (arrived true true).wait = .barrier 3 1 0 5 true 0 true 2 false ∧ (arrived true true).gang = some 0 ∧
    ({ ganged (arrived true true) with barriers := [(3, ⟨1, [0]⟩)] } : State).barriers.find (0 * 4 + 3) = some ⟨1, [0]⟩ :=
  ⟨rfl, rfl, rfl⟩
theorem wit_SleepAndBarriers_released : ({ gangU 1 with wait := .released 0 2 false } : Thread).wait = .released 0 2 false ∧
    0 ≤ (ganged (gangU 1)).now ∧ (ganged (gangU 1)).now < 1 := ⟨rfl, by decide, by decide⟩
theorem wit_SleepAndBarriers_deadline : (arrived true false).wait = .barrier 3 1 0 5 true 0 false 2 false ∧ (5 : Nat) ≠ 0 ∧
    (ganged (arrived true false)).now < 0 + 5 := ⟨rfl, by decide, by decide⟩

/-! ## The cluster scheduler -/

/-- The package with a domain table and, at 0x10040, the header of a task of one tile-store unit, 8 x and 4 v registers. -/
def headed : State := regions.store 0x10040 (leBytes 8 (0x5A36100000000000 + 8 * 2 ^ 34 + 4 * 2 ^ 28) ++ leBytes 8 (2 ^ 42))

/-- A task whose entry is behind that header. -/
def task1 : Task := { task0 with entry := 0x10050, args := [7], state := .queued, hdr := none }

/-- Cluster 0 with that task in a state, and its entry in the run queue. -/
def scheduled (tk : Task) (q : List RqEntry) : State :=
  let s : State := { headed with now := 16384, threads := [] }
  s.setCluster 0 { s.cluster 0 with tasks := [(5, tk)], runq := q, futures := [(0, ⟨1, 0, .pending, 0, 0, false, false, .task, [], none, 0⟩)] }

/-- READY, with its header. -/
def ready1 : Task := { task1 with state := .ready, hdr := some { Header.all with xcount := 8, vcount := 4 }, frame := some 0 }

theorem wit_Scheduling_dispatch : let s := scheduled ready1 [⟨5, 3, false, 0, 0⟩]
    let u := s.parkHeld 0
    (u.cluster 0).dispatchOrder.find? (fun e => (u.slotFor 0 e).isSome) = some ⟨5, 3, false, 0, 0⟩ ∧
    u.slotFor 0 ⟨5, 3, false, 0, 0⟩ = some 0 ∧ (u.cluster 0).tasks.find 5 = some ready1 ∧
    ((u.entryThread 0 5 ready1).map fun x => x.2.1.wait.sleeps) = some false := by decide +kernel
theorem wit_Scheduling_frame : let s := scheduled task1 []
    (s.cluster 0).queuedHead = some (5, task1) ∧ ((s.cluster 0).tasks.filter fun e => e.2.state == .fetching).length < 16 ∧
    s.isCancelled task1.future = false ∧ task1.linked = false ∧ s.headerWaits 0 0 0 0x10050 = false ∧
    (match s.header 0 0 0 0x10050 [0] with
      | .ok h => decide (s.frameFault 0 task1 h = none) && h.tsframe == 1 && (s.cluster 0).frameFit h.tsframe == some 0
      | .error _ => false) = true := by decide
theorem wit_Scheduling_header : (scheduled { task1 with entry := 0x10000 } []).header 0 0 0 0x10000 [0] = .error (0x0404, 0xFFF0) := by
  decide
/-- The task with lines still to load, and with one to store. -/
def fetching1 (f : List (Nat × Nat)) (b : List (Nat × List Byte)) : Task :=
  { task1 with state := .fetching, hdr := ready1.hdr, frame := some 0, fetch := f, fill := b }

theorem wit_Scheduling_tiles : let s := scheduled (fetching1 [(0x10000, tilePlace 0 0)] []) []
    let u := (s.setCluster 0 { s.cluster 0 with frames := [(0, 1)] }).takeFree.2
    (u.cluster 0).fetching = some 5 ∧ u.hostWaits 0 0 0x10000 = false ∧ nameOf 0x10000 = .translated ∧
    (match u.serviceLoad 0 0 0x10000 with
      | .ok (_, _, bad) => !bad
      | .error _ => false) = true ∧
    (match { u with poison := [0x10000] }.serviceLoad 0 0 0x10000 with
      | .ok (_, _, bad) => bad
      | .error _ => false) = true ∧ (u.serviceLoad 0 0 0x20000).toOption.isNone = true ∧ nameOf (2 ^ 63) ≠ .translated := by
  decide +kernel
theorem wit_Scheduling_fill : (fetching1 [] [(tilePlace 0 0, [1])]).fetch = [] ∧
    (fetching1 [] [(tilePlace 0 0, [1])]).fill ≠ [] := by decide
theorem wit_Scheduling_ageing : let s := scheduled ready1 [⟨5, 3, false, 0, 0⟩]
    (s.cluster 0).runq.find? (·.task == 5) = some ⟨5, 3, false, 0, 0⟩ ∧ 0 + 16384 ≤ s.now ∧ (3 < 3 ∨ false = false) := by decide

/-- A thief in cluster 1, whose neighbour reported a QUEUED task. -/
def thieves : State := { scheduled task1 [] with dist := { Dist.reset with views := [(0, ⟨[], [], 0, 0, 1, 0⟩)] } }

theorem wit_Scheduling_steal : thieves.idleCluster 1 = true ∧ (thieves.cluster 1).lastSteal + 64 ≤ thieves.now ∧
    (thieves.setCluster 1 { thieves.cluster 1 with lastSteal := thieves.now }).victim 1 = some 0 ∧
    (thieves.cluster 0).queuedHead = some (5, task1) ∧
    (thieves.setCluster 1 { thieves.cluster 1 with lastSteal := thieves.now }).noneOwed 1 (thieves.clusterPart 1) = true := by decide

/-- A context of cluster 16's task on its way to die 0. -/
def moving : State :=
  let s : State := { scheduled ready1 [] with transit := [⟨0, { usr with task := some (16, 5) }⟩] }
  (s.setCluster 16 { s.cluster 0 with runq := [] }).setCluster 0 { s.cluster 0 with parkArea := 1024, tasks := [] }

theorem wit_Scheduling_arrival : moving.transit[0]? = some ⟨0, { usr with task := some (16, 5) }⟩ ∧
    moving.diePlace 0 0 = some 0 ∧ clusterOfCore 0 = 0 ∧
    ParkAreaFits moving 0 ∧ (moving.parkRoom 0 { usr with task := some (16, 5) }).isSome = true ∧
    (moving.cluster 0).tasks.length < 1024 ∧
    (moving.cluster 16).tasks.find 5 = some ready1 ∧ moving.noneOwed 0 0 = true :=
  ⟨rfl, by decide, rfl, ⟨by decide, by decide⟩, by decide, by decide, by decide, by decide⟩

/-- Every slot of cluster 0 but the handler's taken by a task thread of level 0, and a READY task of level 3 that has waited. -/
def crowded : State :=
  let s := scheduled ready1 [⟨5, 3, false, 0, 0⟩]
  let th : Thread := { usr with task := some (0, 0) }
  let t : State := { s with threads := (clusterSlots 0).map fun k => (k, th) }
  (t.setCluster 0 { t.cluster 0 with tasks := [(5, ready1), (0, task0)], parkArea := 1024 }).setPart 0 { t.part 0 with twait := 16 }

theorem wit_Scheduling_preemption : (crowded.part (crowded.clusterPart 0)).twait * 1024 = 16384 ∧
    (crowded.cluster 0).lastPreempt + 16384 ≤ crowded.now ∧ (crowded.preemptVictim 0).isSome = true ∧
    ParkAreaFits crowded 0 ∧ (crowded.parkRoom 0 parking).isSome = true ∧ (crowded.cluster 0).tasks.find 0 = some task0 :=
  ⟨by decide, by decide, by decide +kernel, ⟨by decide, by decide⟩, by decide, by decide⟩

/-! ## Messages and futures as operations of the machine -/

/-- A record for core 1, one for node 1, and one of an engine command. -/
def note (dest : Nat) (cmd : Option Nat) : Record := ⟨[0, 0x10050, 0, 7], 1, dest, false, cmd, false, 0, 0, none⟩
def sends (r : Record) : State := (on sup).setCore 0 { (on sup).core 0 with inj := [r] }

theorem wit_Messages_drain : (note 1 none).command = none ∧ endNode (note 1 none).dest = (sends (note 1 none)).pkg.node ∧
    endLocal (note 1 none).dest < 6144 ∧ (sends (note 1 none)).pkg.present (clusterOfCore 1) = true ∧
    ((sends (note 1 none)).core 1).killed = false ∧ ((sends (note 1 none)).core 1).sealedRx = false ∧
    (note 1 none).size ≤ ((sends (note 1 none)).core 1).rxFree ∧ endNode (note (2 ^ 15) none).dest = 1 ∧
    (note (2 ^ 15) none).reply = 0 := by decide

/-- An unfinished command of an engine. -/
def order (engine op : Nat) (words : List Word) (started : Bool) : Command :=
  ⟨engine, op, words, 0, 0, 0, [], 0, 0, true, started, 0, 0, [], none, false, [0], 0, [], [], [], [], [], none, false, none⟩

theorem wit_Messages_command : ({ sends (note 8192 (some 0)) with commands := [(0, order 8192 1 [0, 0, 0] true)] } : State).commands.find 0 =
    some (order 8192 1 [0, 0, 0] true) ∧ (note 8192 (some 0)).command = some 0 ∧ (order 8192 1 [0, 0, 0] true).cancelled = false :=
  ⟨rfl, rfl, rfl⟩

/-- The package with a handler's header at 0x10040 and a message in the receive queue of the reserved slot's core. -/
def receiving (r : Record) : State :=
  let s := regions.store 0x10040 (leBytes 8 (0x5A361C0000000000 + 11 * 2 ^ 34) ++ leBytes 8 0)
  s.setCore 0 { s.core 0 with rx := [r] }

theorem wit_Messages_receipt : let r := note 0 none
    let s := receiving r
    (s.core 0).killed = false ∧ (s.core 0).handlerHead = none ∧ (s.core 0).code = none ∧ pickRecord (s.core 0).rx = some r ∧
    r.isCode = false ∧ s.handlerOf 0 r = some 0 ∧ s.takeable 0 r = true ∧ s.handlerFree 0 = true ∧ s.headerWaits 0 0 (s.part 0).hdom 0x10050 = false ∧
    (match (s.dropRecord 0 r).header 0 0 (s.part 0).hdom (r.word 1).toNat [3] with
      | .ok h => decide (h.clsscr ≤ (s.core 0).clsNow * 256)
      | .error _ => false) = true := by decide

/-- A message that another core's slot runs, and one that no slot runs. -/
theorem wit_Messages_handler : (s0.handlerOf 5 (note 5 none)).map (fun h => h != 5) = some true ∧
    (s0.handlerOf 5 (note 5 none)).map (fun h => s0.takeable 5 (note 5 none) && (s0.core h).rx == []) = some true ∧
    (s0.setCluster 0 { s0.cluster 0 with contained := true }).handlerOf 5 (note 5 none) = none := by decide +kernel

/-- A code-carrying message. -/
def code : Record := { note 0 none with words := [2 ^ 28, 0, 0, 0] }

theorem wit_Messages_code : pickRecord ((receiving code).core 0).rx = some code ∧ code.isCode = true ∧
    (receiving code).takeable 0 code = true := by decide

/-- The core whose receive unit runs the message: LI x1 of a word, with what remains of it. -/
def running (words : List Nat) (sq : List (Nat × List Byte)) : State :=
  (receiving code).setCore 0 { (receiving code).core 0 with rx := [], code := some ⟨code, codeThread 0 code, words, sq⟩ }

theorem wit_Messages_run : (∀ r ∈ [running [] [], running [] [(0, [1])], running [0x01231815] []], (r.core 0).killed = false ∧
      (r.core 0).handlerHead = none ∧ (r.core 0).code.isSome = true) ∧
    codeInstr 0x01231815 = some (.li un 3 0x0123) ∧
      (match codeStep (running [0x01231815] []).takeFree.2 0 0 [] (codeThread 0 code) (.li un 3 0x0123) with
        | .ok _ _ => true
        | _ => false) = true := ⟨by decide, rfl, by decide⟩
theorem wit_Messages_start : let s := (receiving (note 0 none)).setCore 0 { (receiving (note 0 none)).core 0 with
      handlerHead := some (note 0 none, { Header.all with xcount := 11 }) }
    (s.core 0).handlerHead = some (note 0 none, { Header.all with xcount := 11 }) ∧ s.slotEmpty (0 * 4 + 3) = true ∧
    s.gangKeeps (0 * 4 + 3) = false ∧ s.clsFit 0 0 = some 0 := by decide

/-- A packet of node 1 for an endpoint of node 0. -/
def packet (ptype dest arg len : Nat) (payload : List Byte) : Packet :=
  ⟨ptype, dest, 2 ^ 15, 0, 0, 1, 0, 0, 0, len, 0, arg, 0, payload⟩

/-- The package with a packet at a gateway of port 0. -/
def gated (s : State) (k : Packet) : State := s.setPort 0 { Port.reset with gate := [⟨plainPacket k, []⟩] }

theorem gate_of (s : State) (k : Packet) : (gated s k).gateOf k = some 0 := by
  simp [gated, State.gateOf, State.setPort, Map.put, gateHas]

theorem leaveGate_parts (s : State) (k : Packet) : (s.leaveGate k).parts = s.parts := by
  unfold State.leaveGate
  split
  · split <;> rfl
  · rfl

theorem takenFrom_taken (s : State) (k : Packet) (p : Nat) :
    ((takenFrom s k p).part p).proof.taken = (s.part p).proof.taken := by
  have h : (s.leaveGate k).part p = s.part p := by simp [State.part, leaveGate_parts]
  unfold takenFrom State.arriving
  split
  · rw [h]
  · simp [State.part, State.setPart, Map.put, Map.find, leaveGate_parts]

/-- Whether partition 0 takes a packet at once that waits at a gateway. -/
def admitsB (s : State) (k : Packet) : Bool :=
  !s.heldFirst k && endNode k.dest == s.pkg.node && s.partOfJob k.job == some 0 && !(s.part 0).ending
    && k.pgen == (s.part 0).pgen && !s.holdsPacket 0 k && !(s.part 0).proof.taken

theorem admits {s : State} {k : Packet} (g : s.gateOf k = some 0) (h : admitsB s k = true) : Admitted s k 0 := by
  simp only [admitsB, Bool.and_eq_true, beq_iff_eq, Bool.not_eq_true'] at h
  obtain ⟨⟨⟨⟨⟨⟨h2, h3⟩, h4⟩, h5⟩, h6⟩, h7⟩, h8⟩ := h
  exact ⟨by rw [g]; rfl, h2, h3, h4, h5, h6, h7, by simp [State.checkLog, takenFrom_taken, h8]⟩

/-- A message of one record for core 1. -/
def arriving : Packet := packet 1 1 0 64 (List.replicate 64 0)

theorem wit_Messages_packet : Admitted (gated s0 arriving) arriving 0 ∧
    (gated s0 arriving).ownsCluster 0 (clusterOfCore 1) = true ∧ (packetRecord arriving).size ≤ ((gated s0 arriving).core 1).rxFree ∧
    (let h := (packetRecord arriving).word 0
     wbits h 4 0 = 0 ∧ wbits h 31 28 = arriving.ptype - 1 ∧ wbits h 27 24 ≤ 8) :=
  ⟨admits (gate_of _ _) (by decide), by decide, by decide, by decide⟩

/-- One whose header has a reserved bit. -/
def illegal : Packet := { arriving with payload := 1 :: List.replicate 63 0 }
theorem wit_Messages_illegal : Admitted (gated s0 illegal) illegal 0 ∧ wbits ((packetRecord illegal).word 0) 4 0 ≠ 0 :=
  ⟨admits (gate_of _ _) (by decide), by decide⟩
theorem wit_Messages_request : (sends { note 0 none with request := some arriving }).core 0 =
    { (on sup).core 0 with inj := [{ note 0 none with request := some arriving }] } := rfl

/-- An entry of a future table. -/
def fut (st : FState) (waiters : List (Waiter × Bool)) : Future := ⟨1, 0, st, 9, 0, false, false, .none, waiters, none, 0⟩

theorem wit_FutureOperations_few : (s0.cluster 0).futures.length ≤ 3072 := by decide
/-- Cluster 0 with a RESOLVED entry and room in its spill area. -/
def spilling : State :=
  s0.setCluster 0 { s0.cluster 0 with futures := [(0, fut .resolved [])], fspillBase := 0x10000, fspillSize := 1, spilling := true }

theorem wit_FutureOperations_spill : (spilling.cluster 0).oldestResolved = some (0, fut .resolved []) ∧
    (spilling.cluster 0).spills.length < 1 * 128 ∧ spilling.hostWaits 0 0 0x10000 = false ∧
    (spilling.perform0 0 0 (0x10000 + 32 * (spilling.cluster 0).spillIndex) none
      (spillBytes (mkHandle 0 0 0 1 0) (fut .resolved []))).toOption.isSome = true := by decide
theorem wit_FutureOperations_full (k : Cluster) (h : k.futures.length = 3585) : 3072 < k.futures.length ∧
    (k.spilling = true ∨ 3584 < k.futures.length) := by omega
theorem wit_FutureOperations_posted : ({ s0.cluster 0 with posted := [.dec 32] } : Cluster).posted = .dec 32 :: [] ∧
    handleNode (FutOp.dec 32).handle = s0.pkg.node ∧ s0.opWaits (.dec 32) = false ∧ handleNode (2 ^ 47 + 32) ≠ s0.pkg.node := by decide

/-- The package in which the thread of slot 0 waits for the future 32. -/
def touched : State :=
  let s := on { sup with wait := .touch 32 }
  s.setCluster 0 { s.cluster 0 with futures := [(0, fut .pending [(.slot 0, true)])] }

theorem wit_FutureOperations_waiter : handleCluster 32 = 0 ∧ (touched.cluster 0).futRef 32 = .live (fut .pending [(.slot 0, true)]) ∧
    clusterOfCore (coreOfKey 0) = 0 ∧ touched.thread 0 = some { sup with wait := .touch 32 } := by decide
/-- The same future touched by two threads of cluster 1. -/
def shared : Future := fut .pending [(.slot 16, false), (.slot 17, false)]

theorem wit_FutureOperations_notice : shared.waiters = [(.slot 16, false), (.slot 17, false)] ∧ shared.single = false ∧
    clusterOfCore (coreOfKey 16) ≠ 0 ∧ clusterOfCore (coreOfKey 17) = clusterOfCore (coreOfKey 16) := by decide

/-- A request of node 1 on the future 32. -/
def asks (op : Nat) : Packet := packet 9 0 32 16 (leBytes 8 0 ++ leBytes 8 (op * 2 ^ 16))

theorem wit_FutureOperations_packet : Admitted (gated (holding .resolved) (asks 0)) (asks 0) 0 ∧
    handleCluster (BitVec.ofNat 64 (asks 0).arg) = 0 ∧ (holding .resolved).fdecWaits 32 = false ∧
    ((holding .resolved).part (handlePart 32)).live = true ∧ ((holding .resolved).part (handlePart 32)).job = (asks 0).job ∧
    ((holding .resolved).cluster 0).futRef 32 = .live (fut .resolved []) ∧
    bitsOf (leNat (((asks 3).payload.drop 8).take 8)) 63 16 = 3 := ⟨admits (gate_of _ _) (by decide), by decide, by decide, by decide, by decide, rfl, by decide⟩
theorem wit_FutureOperations_wake : ({ touched with wakes := [⟨0, [(.slot 0, false)], 32, .resolved, 9, 0⟩] } : State).wakes[0]? =
    some ⟨0, [(.slot 0, false)], 32, .resolved, 9, 0⟩ ∧ (touched.thread 0).isSome = true := by decide

/-- The answer of node 1 to a touch of core 0's thread. -/
def answer : Packet := packet 10 0 32 24 (leBytes 8 9 ++ leBytes 8 0 ++ leBytes 8 2)
def answering : State :=
  { gated (on { sup with wait := .reply 0 }) answer with outstanding := [⟨0, 0, 0, 9, some (.slot 0), 32, false, false⟩] }

theorem wit_FutureOperations_answer : Admitted answering answer 0 ∧
    answering.outstanding.find? (fun o => o.tag == answer.tag && o.ptype == 9 && o.core == endLocal answer.dest) =
      some ⟨0, 0, 0, 9, some (.slot 0), 32, false, false⟩ ∧ answerOf answer = 2 ∧ (answering.thread 0).isSome = true :=
  ⟨admits (gate_of _ _) (by decide), by decide, by decide, by decide⟩
theorem wit_FutureOperations_cancel : ({ s0.cluster 0 with cancels := [0], tasks := [(5, task1)] } : Cluster).cancels = 0 :: [] ∧
    ({ s0.cluster 0 with cancels := [0], tasks := [(5, task1)] } : Cluster).tasks.find? (fun e => e.2.future == 0 &&
      e.2.removable) = some (5, task1) := by decide

/-! ## The master distributor -/

/-- Partition 0 with one mapped launch queue of 16 records at 0x10000, whose head record is not read, or is this one. -/
def queued (r : Option (List Word)) : State :=
  let k := s0.part 0
  let l : LaunchQueue := { LaunchQueue.reset with base := 0x10000, enable := true, mapped := true, tail := 1, record := r }
  { s0.setPart 0 { k with
      queueCount := 1, queues := [(0, l)]
      xcache := k.xcache ++ [⟨6, 0, 0x10000, 4096, 0x10000, true, false, 4⟩] } with dist := { Dist.reset with slots := [(0, 0)] } }

theorem wit_Distributor_read : let l := ((queued none).part 0).queue 0
    l.mapped = true ∧ l.enable = true ∧ l.head ≠ l.tail ∧ l.record = none ∧ l.refusedRead = false ∧
    (queued none).recordWaits 0 0x10000 = false ∧
    (match (queued none).serviceLoad 0 controlDie 0x10000 with
      | .ok (_, bs, bad) => bs.length == 64 && !bad
      | .error _ => false) = true ∧
    (match ({ queued none with parts := [] } : State).serviceLoad 0 controlDie 0x10000 with
      | .ok _ => false
      | .error _ => true) = true := by decide +kernel
theorem wit_Distributor_mapping : ((s0.setPart 0 { s0.part 0 with
    queueCount := 1, queues := [(0, { LaunchQueue.reset with enable := true, pending := true, tail := 1 })] }).pendingQueues) =
      [((0, 0), { LaunchQueue.reset with enable := true, pending := true, tail := 1 })] ∧ s0.dist.slots.length < 256 := by decide

/-- Records: a NOP, one with a reserved bit, and a root task for any granule. -/
def nop : List Word := List.replicate 16 0
def spoilt : List Word := nop.set 14 1
def root : List Word := (nop.set 0 (BitVec.ofNat 64 (2 ^ 56 + 31 * 2 ^ 48))).set 1 0x10050

theorem wit_Distributor_records : (queued (some nop)).queueHead 0 0 = some nop ∧
    (queued (some nop)).recordFault (recordLaunch 0 (((queued (some nop)).part 0).queue 0) nop) nop = none ∧
    (queued (some spoilt)).recordFault (recordLaunch 0 (((queued (some spoilt)).part 0).queue 0) spoilt) spoilt = some 0x0403 ∧
    (queued (some nop)).orderedHeld 0 0 nop = false ∧ (queued (some nop)).sourceHead (sourceOf 0) = some (0, 0) := by decide
theorem wit_Distributor_accepts : ((queued (some nop)).competing.head?.bind (queued (some nop)).trySource).isSome = true := by
  decide +kernel

/-- With a report of cluster 0. -/
def reported : State :=
  { queued (some root) with dist := { (queued (some root)).dist with views := [(0, ⟨[4], [0], 1024, 1024, 0, 0⟩)] } }

theorem wit_Distributor_root : reported.recordFault (recordLaunch 0 ((reported.part 0).queue 0) root) root = none ∧
    wbits ((root[0]?).getD 0) 63 56 = 1 ∧ reported.rootCluster (recordLaunch 0 ((reported.part 0).queue 0) root) = some 0 ∧
    reported.satisfied 0 0 1 = true ∧ reported.noneOwed 0 0 = true ∧ reported.orderedHeld 0 0 root = false := by decide +kernel

/-- The distributor with the completion of an accepted record due, to the page at 0x10000. -/
def noticed : State :=
  { queued none with dist := { Dist.reset with
      notices := [⟨0, 1, 0⟩], accepted := [(0, ⟨0, 0, 32, 0x10000, 5, 0, false⟩)] } }

theorem wit_Distributor_completion : noticed.dist.notices = [⟨0, 1, 0⟩] ∧
    noticed.dist.accepted.find 0 = some ⟨0, 0, 32, 0x10000, 5, 0, false⟩ ∧
    (∀ x ∈ noticed.dist.writes, noticed.completionWaits x = true) := by decide

/-- The distributor with a completion to write, its first word or its second. -/
def completing (second : Bool) : State :=
  { queued none with dist := { Dist.reset with writes := [⟨0, 0x10000, 5, 1, 0, second⟩] } }

theorem wit_Distributor_writes : ∀ second : Bool, (completing second).dist.writes = [⟨0, 0x10000, 5, 1, 0, second⟩] ∧
    (completing second).completionWaits ⟨0, 0x10000, 5, 1, 0, second⟩ = false ∧
    ((completing second).storeControl 0 (if second = true then 0x10008 else 0x10000) (leBytes 8 1)).toOption.isSome = true ∧
    (s0.storeControl 0 0x10000 (leBytes 8 1)).toOption.isSome = false := by decide +kernel

/-- A gang that is placed in slot 4 and has not started. -/
def placed : Gang := { gang0 with started := false, slots := [4] }

theorem wit_Distributor_gang : ({ s0 with gangs := [(0, placed)] } : State).gangs.find 0 = some placed ∧ placed.started = false ∧
    placed.preempted = false ∧ (∀ t ∈ placed.reserved, s0.thread t = none) ∧ placed.saved = [] ∧ placed.slots.Nodup := by decide

/-- The supervisor is to move to slot 4. -/
def displacing : State := let s := on sup; s.setPart 0 { s.part 0 with moveTo := some 4 }

theorem wit_Distributor_move : displacing.supervisorSlot 0 = some 0 ∧ displacing.thread 0 = some sup ∧
    (displacing.part 0).moveTo = some 4 ∧ displacing.moveOpen 4 = true ∧ sup.trap = none ∧ sup.wait = .none ∧ sup.deferred = [] ∧ sup.acc = [] ∧ sup.wset = [] ∧
    (displacing.core (coreOfKey 0)).mx = none := by decide
theorem wit_Distributor_reports : s0.reportDue 0 = true ∧
    ({ s0 with dist := { s0.dist with reported := [(0, s0.report 0)] } } : State).reportDue 0 = false ∧
    (s0.report 0).time + 128 ≤ ({ s0 with now := s0.now + 128 } : State).now := by decide +kernel

/-- A gang launch in the pool whose entry has no header. -/
def pooled : State :=
  let e : PoolEntry := ⟨0x10050, BitVec.ofNat 64 (2 * 2 ^ 56 + 31 * 2 ^ 48), [], 0, 32, 0, 0⟩
  (queued none).setPart 0 { (queued none).part 0 with pool := [e] }

theorem wit_Distributor_pool : ((pooled.part 0).poolHead.map fun e =>
    match pooled.findGang (poolLaunch 0 e) with
      | .fails st _ => st != 0
      | _ => false) = some true := by decide +kernel

/-! ## Engines -/

/-- The package with one command. -/
def ordered (c : Command) : State := { on sup with commands := [(0, c)] }

theorem wit_Engines_rejected : (ordered (order 8192 1 [1, 0, 0] false)).mayStart 0 (order 8192 1 [1, 0, 0] false) = true ∧
    engineOf 8192 = some .copier ∧ engineOf 8704 = some .gather ∧ engineOf 9232 = some .atomicUnit ∧ engineOf 9216 = some .collective ∧
    engineOf 9248 = some .proof := by decide
theorem runs_of (e : Engine) (eng op : Nat) (ws : List Word) (h : engineOf eng = some e) :
    Runs (ordered (order eng op ws true)) 0 (order eng op ws true) e op := ⟨rfl, h, rfl, rfl, rfl, rfl⟩
theorem goes_of (e : Engine) (c : Command) (h : engineOf c.engine = some e) (hf : c.finished = none) (hc : c.cancelled = false)
    (hs : c.started = true) (hp : c.stop = none) : Goes (ordered c) 0 c e c.op := ⟨⟨rfl, h, rfl, hf, hc, hs⟩, hp⟩

/-- A COPY of one block between tile-store windows: with nothing loaded, with all its parts, and with all of it stored. -/
def copies : Command := order 8192 1 [0x00FFFE0000000000, 0x00FFFE0000001000, 256] true
def loaded : Command := { copies with got := (List.range 4).map fun j => (j, List.replicate 64 1) }

theorem wit_Engines_copy : Goes (ordered copies) 0 copies .copier 1 ∧ copies.mayCopy 0 = true ∧ copies.got.find (16 * 0 + 3) = none ∧
    ((ordered copies).engLoad 0 (engineDie 8192) (0x00FFFE0000000000 + 256 * 0 + 64 * 3) 64 (some (copies.atom 0)) []).toOption.isSome =
      true := ⟨goes_of _ _ rfl rfl rfl rfl rfl, by decide, by decide, by decide⟩
theorem wit_Engines_copy_issues : Goes (ordered loaded) 0 loaded .copier 1 ∧ (∀ sub < 4, (loaded.got.find (16 * 0 + sub)).isSome = true) ∧
    (issueAll (loaded.atom 1) [(0, 0x00FFFE0000001000, List.replicate 128 1), (0, 0x00FFFE0000001080, List.replicate 128 1)]
      (ordered loaded) { loaded.forgets (16 * 0) 16 with done := 0 :: loaded.done }).toOption.isSome = true :=
  ⟨goes_of _ _ rfl rfl rfl rfl rfl, by decide, by decide⟩
theorem wit_Engines_copy_ends : ({ copies with done := [0] } : Command).blockDone 0 = true ∧ copies.word 2 / 256 ≤ 17 / 17 := by decide

/-- A COPY to memory, whose one store is at the page. -/
def storing0 (pa : Option Nat) : Command :=
  { order 8192 1 [0x00FFFE0000000000, 0x10000, 256] true with sq := [⟨0x10000, List.replicate 64 1, false, 0, pa⟩] }

theorem wit_Engines_performs : Runs (ordered (storing0 none)) 0 (storing0 none) .copier 1 ∧
    ((storing0 (some 0x10000)).sq[0]?).bind (·.place) = some 0x10000 ∧
    (match ((ordered (storing0 none)).engWalk 0 (engineDie 8192) 0x10000 true (some false)).engBegin (storing0 none) 0 with
      | .ok sq => (sq[0]?).bind (·.place) == some 0x10000
      | .error _ => false) = true := ⟨⟨rfl, rfl, rfl, rfl, rfl, rfl⟩, rfl, by decide⟩
theorem wit_Engines_stops : Runs (ordered { copies with stop := some (0, 3, 7) }) 0 { copies with stop := some (0, 3, 7) } .copier 1 ∧
    (match ((ordered { storing0 none with words := [0, 2 ^ 45, 256], sq := [⟨2 ^ 45, [1], false, 0, none⟩] }).engWalk 0
        (engineDie 8192) (2 ^ 45) true (some false)).engBegin { storing0 none with words := [0, 2 ^ 45, 256], sq := [⟨2 ^ 45, [1], false, 0, none⟩] }
          0 with
      | .ok _ => false
      | .error _ => true) = true := ⟨⟨rfl, rfl, rfl, rfl, rfl, rfl⟩, by decide⟩
theorem wit_Engines_block : nameOf 0x00FFFE0000000000 = .tile 0 0 ∧ 0 + (List.replicate 64 (1 : Byte)).length ≤ 0x200000 := by decide

/-- Cluster 0 with ring 0 of one slot of 256 bytes, free. -/
def ringing (c : Command) : State :=
  (ordered c).setCluster 0 { s0.cluster 0 with rings := [(0, ⟨true, 0, 8, 0, 0, 1, 0, 0⟩)], ringArea := 1 }

/-- A COPYR of one slot. -/
def rolls : Command := order 8192 2 [0x00FFFE0000001000, 0, 256] true

theorem wit_Engines_copyr : Goes (ringing rolls) 0 rolls .copier 2 ∧ (((ringing rolls).cluster 0).ring 0).free ≠ 0 ∧
    Nat.min (2 ^ (((ringing rolls).cluster 0).ring 0).slotsz) (256 - rolls.pos) / 256 = 1 ∧
    ((ringing rolls).engLoad 0 (engineDie 8192) 0x00FFFE0000001000 64 (some (rolls.atom 0)) []).toOption.isSome = true ∧
    rolls.word 2 ≤ ({ rolls with pos := 1 } : Command).pos * 2 ^ (((ringing rolls).cluster 0).ring 0).slotsz :=
  ⟨⟨⟨rfl, rfl, rfl, rfl, rfl, rfl⟩, rfl⟩, by decide, by decide, by decide, by decide⟩

/-- A gather of one element of 64 bytes between tile-store windows. -/
def gathers : Command := order 8704 1 [0x00FFFE0000000000, 0x00FFFE0000001000, 1, 64, 0x00FFFE0000002000] true
def indexed : Command := { gathers with got := [(0, [0, 0, 0, 0])] }
/-- One whose word 0 is loaded, one whose word 0 is stored, and one whose word 1 is loaded. -/
def fetched : Command := { indexed with got := indexed.got.put 1 (List.replicate 32 1) }
def half : Command := { indexed with got := indexed.got.put 1 [] }
def last : Command := { half with got := half.got.put 2 (List.replicate 32 1) }

theorem wit_Engines_gather : Goes (ordered gathers) 0 gathers .gather 1 ∧ (0 : Nat) < gathers.word 2 ∧ gathers.got.find (256 * 0) = none ∧
    ((ordered gathers).engLoad 0 (engineDie 8704) 0x00FFFE0000000000 4 (some (gathers.atom 0)) []).toOption.isSome = true ∧
    (1 : Nat) < gathers.word 3 / 32 ∧ indexed.got.find (256 * 0 + 1 + 0) = none ∧ half.got.find (256 * 0) = some [0, 0, 0, 0] ∧
    half.got.find (256 * 0 + 1 + 1) = none ∧ half.got.find (256 * 0 + 1) = some [] ∧
    (ordered indexed).gatherCheck indexed 0x00FFFE0000001000 = none ∧ (ordered half).gatherCheck half 0x00FFFE0000001020 = none ∧
    ((ordered indexed).engLoad 0 (engineDie 8704) 0x00FFFE0000001000 32 (some false) []).toOption.isSome = true ∧
    ((ordered half).engLoad 0 (engineDie 8704) 0x00FFFE0000001020 32 (some false) []).toOption.isSome = true :=
  ⟨goes_of _ _ rfl rfl rfl rfl rfl, by decide, by decide, by decide, by decide, by decide, by decide, by decide, by decide, by decide,
    by decide, by decide, by decide⟩
theorem wit_Engines_gather_issues : fetched.got.find (256 * 0 + 1 + 0) = some (List.replicate 32 1) ∧
    last.got.find (256 * 0 + 1 + 1) = some (List.replicate 32 1) ∧ 32 * (0 + 1) < fetched.word 3 ∧ ¬ 32 * (1 + 1) < last.word 3 ∧
    (issueAll (fetched.atom 1) [(0, 0x00FFFE0000002000, List.replicate 32 1)] (ordered fetched)
      { fetched with got := fetched.got.put 1 [] }).toOption.isSome = true ∧
    (issueAll (last.atom 1) [(0, 0x00FFFE0000002020, List.replicate 32 1)] (ordered last)
      { last.forgets (256 * 0) 256 with done := 0 :: last.done }).toOption.isSome = true := by decide

/-- An ADDV of one element from a tile-store window to the ATOM page. -/
def adds : Command := order 9232 1 [0x00FFFE0000000000, 0x10008, 1] true
def adding (c : Command) : State := { atoms sup with commands := [(0, c)] }

theorem wit_Engines_addv : Goes (adding adds) 0 adds .atomicUnit 1 ∧ adds.pos < adds.word 2 ∧ adds.got.find 0 = none ∧
    ((adding adds).engLoad 0 (engineDie 9232) 0x00FFFE0000000000 8 (some (adds.atom 0)) []).toOption.isSome = true ∧
    (((adding adds).engWalk 0 (engineDie 9232) 0x10008 true (some true)).addPlace adds 0x10008).toOption.isSome = true ∧
    (((ordered adds).engWalk 0 (engineDie 9232) 0x10008 true (some true)).addPlace adds 0x10008).toOption.isSome = false :=
  ⟨⟨⟨rfl, rfl, rfl, rfl, rfl, rfl⟩, rfl⟩, by decide, by decide, by decide, by decide, by decide⟩

/-- A collective whose descriptor stands at the page: SIZE 2, RANK 0, STEPDONE 0, the members at 0x10100. -/
def collects (op w6 pos : Nat) : Command :=
  { order 9216 op [0x10000, 1, 0x00FFFE0000000000, 0x00FFFE0000001000, 256, 0, BitVec.ofNat 64 w6] true with pos := pos }
def group (c : Command) : State :=
  { s0.store 0x10000 (leBytes 8 (2 * 2 ^ 46) ++ leBytes 8 0 ++ leBytes 8 0x10100) with commands := [(0, c)] }

theorem wit_Engines_group : CollectiveStep (group (collects 1 0 0)) 0 (collects 1 0 0) (fun k => .allgather ⟨0, k⟩) ∧
    CollectiveStep (group (collects 2 0 0)) 0 (collects 2 0 0) (fun k => .allreduce ⟨0, k⟩) ∧
    (collects 1 0 0).hasAll descKey 4 = false ∧ atomPage (group (collects 1 0 0)) 0 (engineDie 9216) 0x10000 = false ∧
    ((group (collects 1 0 0)).engLoad 0 (engineDie 9216) 0x10000 64 none []).toOption.isSome = true :=
  ⟨.inl ⟨rfl, ⟨⟨rfl, rfl, rfl, rfl, rfl, rfl⟩, rfl⟩⟩, .inr ⟨rfl, ⟨⟨rfl, rfl, rfl, rfl, rfl, rfl⟩, rfl⟩⟩, by decide, by decide, by decide⟩

/-- One whose descriptor stands on the ATOM page, which it reads in four parts. -/
def onAtom : Command := { collects 1 0 0 with words := (0x10000 : Word) :: (collects 1 0 0).words.drop 1 }

theorem wit_Engines_group_atom : atomPage (adding onAtom) 0 (engineDie 9216) 0x10000 = true ∧ onAtom.hasAll descKey 4 = false ∧
    ((List.range 4).filter fun y => (onAtom.got.find (descKey + y)).isNone)[3 % 4]? = some 3 ∧
    ((adding onAtom).engLoad 0 (engineDie 9216) (0x10000 + 16 * 3) 16 none []).toOption.isSome = true := by decide

/-- One that has read the descriptor: SIZE 2, RANK 0, STEPDONE 0. -/
def described (op : Nat) : Command :=
  { collects op 0 0 with got := [(descKey, leBytes 8 (2 * 2 ^ 46) ++ leBytes 8 0), (descKey + 1, leBytes 8 0x10100 ++ leBytes 8 0),
      (descKey + 2, List.replicate 16 0), (descKey + 3, List.replicate 16 0)] }

theorem wit_Engines_described : (described 1).hasAll descKey 4 = true ∧
    (let d := wordsOf ((described 1).gathered descKey 4) 8
    groupReserved d = false ∧ groupDone d = 0 ∧ groupSize d = 2 ∧ groupRank d = 0 ∧ (described 1).word 1 = 1 ∧
      (({ described 1 with words := [0x10000, 2] } : Command).word 1 ≠ groupDone d + 1)) ∧
    ((group (described 1)).gatherRights ((described 1).forgets descKey 4) 2).toOption.isSome = true := by decide

/-- It knows its group; it has the member list; it has its source. -/
def known (op : Nat) : Command := { collects op 0 1 with got := [(memberKey, leBytes 8 0x10100 ++ leBytes 8 2)] }
def listed (op : Nat) : Command := { known op with got := (memberKey + 1, leBytes 4 0 ++ leBytes 4 1) :: (known op).got }
def sourced (op w6 : Nat) : Command :=
  { collects op w6 2 with members := [0, 1], got := (List.range 4).map fun j => (sourceKey + j, List.replicate 64 1) }

theorem wit_Engines_members : (known 1).got.find memberKey = some (leBytes 8 0x10100 ++ leBytes 8 2) ∧ partCount 16 0x10100 (4 * 2) = 1 ∧
    ((group (known 1)).engLoad 0 (engineDie 9216) (partAt 16 0x10100 8 0).1 (partAt 16 0x10100 8 0).2 none []).toOption.isSome = true ∧
    (listed 1).hasAll (memberKey + 1) 1 = true := by decide
theorem wit_Engines_source : partCount 64 ((sourced 1 0).word 2) (sourced 1 0).share = 4 ∧ (sourced 1 0).hasAll sourceKey 4 = true ∧
    ((group (sourced 1 0)).engLoad 0 (engineDie 9216) (partAt 64 0x00FFFE0000000000 256 3).1 (partAt 64 0x00FFFE0000000000 256 3).2
      (some ((sourced 1 0).atom 0)) []).toOption.isSome = true ∧ (group (sourced 1 0)).carriesTotals (sourced 1 0) = false := by decide

/-- One whose chunks are all there. -/
def complete (op : Nat) : Command :=
  { collects op 0 3 with
    members := [0, 1], done := [chunkKey 0 0, chunkKey 1 0]
    got := [(chunkKey 0 0, List.replicate 256 0), (chunkKey 1 0, List.replicate 256 0)] }

theorem wit_Engines_arrived : (group (complete 1)).allArrived (complete 1) = true ∧ (complete 1).word 6 % 4 ≠ 2 ∧
    (group (complete 2)).allArrived (complete 2) = true ∧ (complete 2).sq = [] := by decide
theorem wit_Engines_elements : floatFmt 0x15 = none ∧ 2 ^ 32 - 1 < 2 ^ fmtWidth 0x15 := by decide

/-- The end of a step, at the descriptor's STEPDONE. -/
theorem wit_Engines_step : let c := { complete 1 with closing := true }
    let t := (group c).engWalk 0 (engineDie 9216) 0x10008 true none
    t.hostWaits 0 (engineDie 9216) 0x10000 = false ∧ (t.part 0).sealedAt 0x10008 = false ∧
    (match engPage t 0 (engineDie 9216) 0x10008 true none with | .ok g => !g.atom | .error _ => false) = true ∧
    (group c).carriesTotals c = false ∧
    (t.performHome 0 (engineDie 9216) 0x10008 4 true fun _ => some (leBytes 4 1)).toOption.isSome = true := by decide +kernel

/-- A class-2 command with one of its two blocks. -/
def partial_ : Command := { collects 1 2 3 with members := [0, 1], blocks := [0] }

theorem wit_Engines_timeout : Goes (ordered partial_) 0 partial_ .collective 1 ∧ partial_.word 6 % 4 = 2 ∧ partial_.pos = 3 ∧
    partial_.closing = false ∧ partial_.nblocks = 2 ∧ partial_.startedAt + partial_.word 6 / 2 ^ 32 ≤ (ordered partial_).now ∧
    (ordered partial_).now < partial_.startedAt + ({ partial_ with words := [0, 0, 0, 0, 0, 0, 2 ^ 32 + 2] } : Command).word 6 / 2 ^ 32 ∧
    (issueAll (partial_.atom 1) (deliveries (partial_.word 3) 256 (List.replicate 256 0)) (ordered partial_)
      { partial_ with closing := true }).toOption.isSome = true :=
  ⟨goes_of _ _ rfl rfl rfl rfl rfl, by decide, rfl, rfl, by decide, by decide, by decide, by decide +kernel⟩
theorem wit_Engines_completion : ({ copies with finished := some (0, 0), lines := [0x10000] } : Command).finished.isSome = true ∧
    copies.sq = [] ∧ copies.lines = [] ∧ ((ordered copies).part 0).proof.armed ≠ some 0 ∧
    ({ copies with cancelled := true } : Command).resting = true := by decide

/-! ## Checkpoints -/

/-- The package whose page at 0x10000 holds the tagging group's descriptor after step 0 and its proof descriptor, and whose one
granule is at 0x10000. -/
def tagged (c : Command) : State :=
  let s := (s0.setPart 0 { s0.part 0 with xcache := ⟨6, 0, 0x10000, 4096, 0x10000, true, false, 4⟩ :: (s0.part 0).xcache }).store
    0x10000 (leBytes 8 (2 ^ 46 + 2 ^ 27) ++ List.replicate 56 0)
  { s.store 0x10040 (leBytes 8 (2 ^ 60 + 2 ^ 54) ++ List.replicate 56 0) with commands := [(0, c)] }

/-- A CUT at step n, in the inbox or taken. -/
def cuts (n : Nat) (started : Bool) : Command := order 9248 1 [0x10000, BitVec.ofNat 64 n] started

theorem wit_Checkpoints_cut : (tagged (cuts 1 false)).mayStart 0 (cuts 1 false) = true ∧
    Goes (tagged (cuts 1 true)) 0 (cuts 1 true) .proof 1 ∧ (cuts 1 true).hasAll descKey 4 = false ∧
    (let u := (tagged (cuts 1 true)).takeFree.2
     atomPage u 0 (engineDie 9248) 0x10000 = false ∧ (u.engLoad 0 (engineDie 9248) 0x10000 64 none []).toOption.isSome = true ∧
       (u.engLoad 0 (engineDie 9248) 0x10040 64 none []).toOption.isSome = true) :=
  ⟨by decide, ⟨⟨rfl, rfl, rfl, rfl, rfl, rfl⟩, rfl⟩, by decide, by decide +kernel⟩

/-- The CUT that has read both descriptors: PROOF, STEPDONE 0; one storage endpoint of node 1, all of the reserve. -/
def cutRead (n : Nat) : Command :=
  { cuts n true with got := [(descKey, leBytes 8 (2 ^ 46 + 2 ^ 27) ++ leBytes 8 0), (descKey + 1, List.replicate 16 0),
      (descKey + 2, List.replicate 16 0), (descKey + 3, List.replicate 16 0),
      (descKey + 4, leBytes 8 (2 ^ 60 + 2 ^ 54) ++ leBytes 8 0), (descKey + 5, List.replicate 16 0),
      (descKey + 6, List.replicate 16 0), (descKey + 7, List.replicate 16 0)] }

theorem wit_Checkpoints_read : (cutRead 1).hasAll descKey 8 = true ∧
    (proofDesc (wordsOf ((cutRead 1).gathered (descKey + 4) 4) 8)).isSome = true ∧
    (let g := wordsOf ((cutRead 1).gathered descKey 4) 8
     groupProof g = true ∧ groupReserved g = false ∧ groupDone g = 0) ∧
    (tagged (cutRead 1)).cutOutstanding 0 0 = false ∧ ((tagged (cutRead 1)).part 0).tagging = none ∧
    (cutRead 0).word 1 = 0 ∧ (tagged (cutRead 0)).stepRuns 0 0x10000 1 (fun _ => true) = false ∧
    (tagged (cutRead 0)).stepStippled 0 0x10000 0 = false ∧
    ({ tagged (cutRead 1) with commands := [(0, cutRead 1), (1, { cutRead 1 with pos := 1 })] } : State).cutOutstanding 0 0 = true := by
  decide +kernel

/-- A CUT whose descriptor stands on the ATOM page: a step reads 16 bytes of it. -/
theorem wit_Checkpoints_read_atom : let u := (s0.setPart 0 { s0.part 0 with
      xcache := ⟨6, 0, 0x10000, 4096, 0x10000, true, true, 4⟩ :: (s0.part 0).xcache }).takeFree.2
    atomPage u 0 (engineDie 9248) 0x10000 = true ∧
    ((List.range 4).filter fun y => ((cuts 1 true).got.find (descKey + y)).isNone)[3 % 4]? = some 3 ∧
    (u.engLoad 0 (engineDie 9248) (0x10000 + 16 * 3) 16 none []).toOption.isSome = true := by decide +kernel

/-- An armed CUT, and one that is taken with a granule marked. -/
def armedCut : Proof := { Proof.idle with armed := some 0, step := 1, group := 0x10000, stores := [2 ^ 15], logOpen := false }
def takenCut : Proof := { armedCut with taken := true, image := [(0, List.replicate 64 7)], marked := [0] }
def cutting (q : Proof) : State :=
  let s := tagged (cuts 1 true)
  { s.setPart 0 { s.part 0 with proof := q, reserve := [1], stage2 := [0x10000, 0x20000] } with now := 2 ^ 32 }

theorem wit_Checkpoints_timeout : ((cutting armedCut).part 0).proof.armed = some 0 ∧ ((cutting armedCut).part 0).proof.taken = false ∧
    ((cutting armedCut).part 0).proof.held = [] ∧ 0 + 2 ^ 32 ≤ (cutting armedCut).now := by decide
theorem wit_Checkpoints_copy : 0 ∈ ((cutting takenCut).part 0).proof.marked ∧ ((cutting takenCut).part 0).reserveSlot = some 1 ∧
    ((cutting takenCut).part 0).stage2[1]? = some 0x20000 ∧
    ({ (cutting takenCut).part 0 with reserve := [] } : Part).reserveSlot = none ∧
    ((cutting takenCut).part 0).granuleAt 0x10000 = some 0 ∧ (cutting takenCut).granulePoisoned 0 0 = false ∧
    ({ cutting takenCut with poison := [0x10000] } : State).granulePoisoned 0 0 = true ∧
    takenCut.drained = 16 * takenCut.order.length ∧ 0 ∈ takenCut.image.map (·.1) ∧
    ({ takenCut with drained := 1 } : Proof).acks < 1 ∧ takenCut.sentAt + 2 ^ 32 ≤ (cutting takenCut).now := by decide
theorem wit_Checkpoints_drain : let q := ((cutting { takenCut with drained := 0 }).part 0).proof
    q.held = [] ∧ ((cutting takenCut).part 0).restored = [] ∧ q.armed = some 0 ∧ q.taken = true ∧ q.logOpen = false ∧
    q.drained < 16 * (q.image.length + q.logRecords) ∧ q.image.length = 1 ∧ q.logRecords = 0 ∧
    (dataOff 1 0 - 0x1000) / 4096 = 15 := by decide

/-! ## Packets and ports -/

/-- A read, a write and an atomic of node 1 at the page. -/
def reading : Packet := packet 3 0 0x10000 8 []
def writing : Packet := packet 5 0 0x10000 8 (List.replicate 8 1)
def changing (op : Nat) : Packet := { packet 7 0 0x10000 32 (List.replicate 32 1) with op := op }

theorem wit_Packets_refused : (gated s0 reading).partOfJob 9 = none ∧ (gated s0 reading).partOfJob 0 = some 0 ∧
    ((gated s0 reading).part 0).ending = false ∧ (1 : Nat) ≠ ((gated s0 reading).part 0).pgen ∧
    ((gated s0 reading).gateOf reading).isSome = true ∧ (gated s0 reading).heldFirst reading = false ∧
    endNode reading.dest = (gated s0 reading).pkg.node ∧ reading.cls < 2 := by decide

/-- The package whose fabric domain has every right on the page, which a gateway of die 0 translates. -/
def exported : State :=
  (s0.setPart 0 { s0.part 0 with
    domBase := 0x10000, xcache := ⟨6, 0, 0x10000, 4096, 0x10000, true, false, 4⟩ :: (s0.part 0).xcache }).store 0x10000
    (leBytes 8 0x10010 ++ leBytes 8 1 ++ leBytes 8 (56 * 64) ++ leBytes 8 0x1F)

/-- Whether an access at the page of a state has a place. -/
def atHome (s : State) (w casq : Bool) : Bool := (s.fabricPlace 0 0 0x10000 w casq).toOption.isSome

theorem wit_Packets_access : AdmittedAccess (gated exported reading) reading 0 ∧ AdmittedAccess (gated exported writing) writing 0 ∧
    AdmittedAccess (gated exported (changing 0)) (changing 0) 0 ∧ (gated exported reading).fabricWaits 0 0 reading = false ∧
    (gated exported reading).gateDie reading = 0 ∧ (gated exported reading).packetStays reading = false :=
  ⟨⟨admits (gate_of _ _) (by decide), by decide⟩, ⟨admits (gate_of _ _) (by decide), by decide⟩, ⟨admits (gate_of _ _) (by decide), by decide⟩, by decide, by decide,
    by decide⟩
theorem wit_Packets_places : atHome exported false false = true ∧ atHome exported true false = true ∧
    atHome s0 false false = false ∧
    (exported.fabricStep 0 0 ⟨0x10000, 4096, 0x10000, true, false, 4⟩ 0x10000 8 fun _ => some writing.payload).toOption.isSome = true := by
  decide

/-- The page an ATOM page of a region with the ATOM right. -/
def exportedAtom : State :=
  (s0.setPart 0 { s0.part 0 with
    domBase := 0x20000
    xcache := (List.range 4).map (fun sl => ⟨0, sl, 0x10000, 4096, 0x10000, true, true, 4⟩) ++
      (List.range 4).map fun sl => ⟨0, sl, 0x20000, 4096, 0x20000, true, false, 4⟩ }).store 0x20000
    (leBytes 8 0x20010 ++ leBytes 8 1 ++ leBytes 8 (56 * 64) ++ leBytes 8 0x3F)

theorem wit_Packets_atomic :
    (match exportedAtom.fabricPlace 0 0 0x10000 true false, exportedAtom.fabricPlace 0 0 0x10000 true true with
      | .ok g, .ok h => g.atom && h.atom && !(exportedAtom.fabricLine 0 g 0x10000).bad
      | _, _ => false) = true ∧ (changing 8).payload.length = 32 ∧ (exportedAtom.part 0).proof.marked = [] := by decide

/-- A request of core 0 to another node, whose thread waits. -/
def wait0 (ptype : Nat) : Outstanding := ⟨0, 0, 0, ptype, some (.slot 0), 0, false, false⟩
def asking (ptype : Nat) : State := { on { sup with wait := .reply 0 } with outstanding := [wait0 ptype] }

/-- Their replies, and an error reply to a read. -/
def reply0 (ptype : Nat) : Packet := packet ptype 0 0 8 (List.replicate 8 1)
def error0 : Packet := packet 0x20 0 (3 * 2 ^ 48 + 7 * 2 ^ 56) 8 (List.replicate 8 0)

theorem wit_Packets_replies : (∀ r ∈ [3, 5, 7], (gated (asking r) (reply0 (r + 1))).requestOf (reply0 (r + 1)) r = some (wait0 r)) ∧
    Admitted (gated (asking 3) (reply0 4)) (reply0 4) 0 ∧ Admitted (gated (asking 5) (reply0 6)) (reply0 6) 0 ∧
    Admitted (gated (asking 7) (reply0 8)) (reply0 8) 0 ∧ (reply0 4).op ≠ 1 ∧ endLocal (reply0 6).dest ≠ 9248 ∧
    Admitted (gated (asking 3) error0) error0 0 ∧ bitsOf error0.arg 55 48 = 3 ∧
    (gated (asking 3) error0).requestOf error0 3 = some (wait0 3) :=
  ⟨by decide, admits (gate_of _ _) (by decide), admits (gate_of _ _) (by decide), admits (gate_of _ _) (by decide), by decide, by decide, admits (gate_of _ _) (by decide), by decide,
    by decide⟩

/-- The acknowledgement of a drain's packet. -/
def drainAck : Packet := packet 6 9248 0 0 []

theorem wit_Packets_ack : Admitted (gated (cutting armedCut) drainAck) drainAck 0 ∧ endLocal drainAck.dest = 9248 ∧
    ((gated (cutting armedCut) drainAck).part 0).proof.armed.isSome = true ∧ drainAck.tag = 0 % 2 ^ 32 :=
  ⟨admits (gate_of _ _) (by decide), by decide, by decide, by decide⟩

/-- Data and totals of member 1 of a group of nodes 0 and 1 for step 1, and the first bytes of a stipple block of it. -/
def chunk (g tag : Nat) : Packet := { packet 0x10 9216 (g * 2 ^ 32 + 1) 256 (List.replicate 256 1) with tag := tag }
theorem chunk_arg (g tag : Nat) : (chunk g tag).arg / 2 ^ 32 = g ∧ (chunk g tag).arg % 2 ^ 32 = 1 := by
  have h : (chunk g tag).arg = g * 2 ^ 32 + 1 := rfl
  omega
def block : Packet :=
  { packet 0x11 9216 (0xe3fbc462 * 2 ^ 32 + 1) 8 (List.replicate 8 1) with tag := stippleTag [0, 1] 1, cls := 2 }

theorem found_of (s : State) (c : Command) (w : Word) (r : List Word) (h : s.commands = [(0, c)]) (he : engineOf c.engine = some .collective)
    (hp : c.part = 0) (hs : c.started = true) (hf : c.finished = none) (ht : c.stop = none) (hc : c.cancelled = false)
    (hl : c.closing = false) (hm : c.members.contains 1 = true) (hw : c.words = w :: 1 :: r) :
    s.collectiveFor 0 1 (Command.ofStep 1 (groupNumber c.members)) = some (0, c) := by
  simp only [State.collectiveFor, Command.ofStep, h, List.filter, he, hp, hs, hf, ht, hc, hl, hm, Command.word, hw]
  simp
theorem stipple_of (s : State) (c : Command) (w : Word) (r : List Word) (h : s.commands = [(0, c)]) (he : engineOf c.engine = some .collective)
    (hp : c.part = 0) (hs : c.started = true) (hf : c.finished = none) (ht : c.stop = none) (hc : c.cancelled = false)
    (hl : c.closing = false) (hm : c.members.contains 1 = true) (hw : c.words = w :: 1 :: r) (h2 : c.cls = 2) :
    s.collectiveFor 0 1 (Command.ofStipple (stippleTag c.members 1)) = some (0, c) := by
  simp only [State.collectiveFor, Command.ofStipple, Command.stippleTag, h, List.filter, he, hp, hs, hf, ht, hc, hl, hm, h2, Command.word, hw]
  simp
theorem wit_Packets_collective : let k := chunk (groupNumber [0, 1]) 0
    Admitted (gated (ordered (complete 1)) k) k 0 ∧
    (gated (ordered (complete 1)) k).collectiveFor 0 (endNode k.src) (Command.ofStep (k.arg % 2 ^ 32) (k.arg / 2 ^ 32)) =
      some (0, complete 1) ∧ k.tag ≠ totalsChunk ∧ (gated (ordered (complete 1)) k).collectiveHere k 0 = true ∧
    (gated (ordered (complete 1)) k).collectiveHere { k with dest := 0 } 0 = false :=
  ⟨admits (gate_of _ _) (by decide), by
    rw [(chunk_arg _ _).1, (chunk_arg _ _).2]
    exact found_of _ (complete 1) _ _ rfl rfl rfl rfl rfl rfl rfl rfl rfl rfl, by decide, by decide, by decide⟩
theorem wit_Packets_stipple : Admitted (gated (ordered partial_) block) block 0 ∧
    (gated (ordered partial_) block).collectiveFor 0 (endNode block.src) (Command.ofStipple block.tag) = some (0, partial_) ∧
    crc32c block.payload = block.arg / 2 ^ 32 ∧ 256 * 1 / partial_.word 4 = partial_.members.idxOf (endNode block.src) ∧
    1 < partial_.nblocks := ⟨admits (gate_of _ _) (by decide +kernel), by
      have h1 : endNode block.src = 1 := by decide
      have h2 : block.tag = stippleTag partial_.members 1 := by simp only [block, partial_]
      rw [h1, h2]
      exact stipple_of _ partial_ 0x10000 (partial_.words.drop 2) rfl rfl rfl rfl rfl rfl rfl rfl (by decide) rfl rfl, by decide +kernel, by decide, by decide⟩
theorem wit_Packets_late : (({ s0.part 0 with stippled := [(1, [0, 1])] } : Part).stippleLate 1 (endNode block.src)) = true ∧
    (s0.part 0).stippleLate 1 (endNode block.src) = false ∧
    s0.collectiveFor 0 (endNode block.src) (Command.ofStipple 1) = none := by decide
theorem wit_Packets_totals : (({ s0.part 0 with stippled := [(stippleTag [0, 1] 1, [0, 1])] } : Part).totalsLate 1
    (groupNumber [0, 1]) 1) = true ∧ (s0.part 0).totalsLate 1 (groupNumber [0, 1]) 1 = false := by
  refine ⟨by simp [Part.totalsLate], ?_⟩
  have h : (s0.part 0).stippled = [] := by decide
  simp [Part.totalsLate, h]
theorem wit_Packets_fence : let k := packet 0x21 0 0 0 []
    let s := gated (s0.setPart 0 { s0.part 0 with ending := true, fences := 1 }) k
    s.partOfJob k.job = some 0 ∧ (s.part 0).ending = true ∧ k.arg = (s.part 0).pgen ∧ (s.part 0).fences ≠ 0 ∧
    (s.gateOf k).isSome = true ∧ s.partOfJob 9 = none := by decide
theorem wit_Packets_management : let k := { packet 0x30 0x7FFF 0 0 [] with cls := 3 }
    k.ptype = 0x30 ∧ k.cls = 3 ∧ endNode k.dest = s0.pkg.node ∧ endLocal k.dest = 0x7FFF ∧ ((gated s0 k).gateOf k).isSome = true := by
  decide

/-- The package out of its safe state. -/
def booted : State := { s0 with pkg := { s0.pkg with safe := false } }

/-- A port that is up, with one key on both sides. -/
def port0 : Port := { Port.reset with lanes := 4, keys := [[1], []], peerKeys := [[1], []] }

/-- The package with that port, and a flit of SEQ 0 with a good CRC-32C and no key, or without one. -/
def wired : State := s0.setPort 0 port0
def flit (fclass : Nat) : Flit :=
  let bs := leBytes 8 (fclass * 2 ^ 30 + 2 ^ 29) ++ List.replicate 244 0
  ⟨false, 0, [], bs ++ leBytes 4 (crc32c bs)⟩
def broken : Flit := ⟨false, 0, [], List.replicate 256 1⟩

theorem wit_Ports_up : (wired.port 0).up = true ∧ flitCrcOk (flit 0) = true ∧ flitOpen (flit 0) (keyAt port0.peerKeys (flitKeysel (flit 0))) = none ∧
    flitCrcOk broken = false ∧ twoKeys port0.keys = false ∧ keyAt port0.keys port0.slot ≠ [] := by decide +kernel
theorem wit_Ports_seq : flitSeq (flit 0) = (wired.port 0).recvSeq ∧ flitClass (flit 1) = 1 ∧
    booted.carries 0 = true ∧ s0.rxRoom port0 false false none = true ∧
    (s0.rxRoom { port0 with held := (List.range 32).map fun i => ⟨i, false, none, true⟩ } false true none) = false ∧
    flitSeq broken ≠ (wired.port 0).recvSeq := by decide +kernel

/-- A management packet that waits for port 0, which has begun to send it. -/
def note0 : Packet := { packet 0x30 (2 ^ 15 + 0x7FFF) 0 32 (List.replicate 32 1) with cls := 3 }
def mailing : Port := { port0 with sending := [⟨note0, (packetBytes note0).length, false⟩] }

theorem wit_Ports_grant : wired.grant 0 port0 (wired.tokensAfter port0) = none ∧
    wired.grant 0 mailing (wired.tokensAfter mailing) = some (⟨note0, (packetBytes note0).length, false⟩, true) ∧
    wired.followers 0 mailing (⟨note0, (packetBytes note0).length, false⟩, true) = [] ∧ (packetBytes note0).length ≤ 232 ∧ (packetBytes note0).any (· != 0) = true := by
  decide +kernel

/-- A port that retrains. -/
def retraining : Port := { port0 with retraining := true }

theorem wit_Ports_peer : booted.pkg.safe = false ∧ (let x : PortUp := ⟨0, 4, true, s0.pkg.node⟩
    x.marnar = true ∧ x.node = s0.pkg.node ∧ x.lanes = 4) ∧ (⟨0, 4, true, 7⟩ : PortUp).node ≠ s0.pkg.node := by decide
theorem wit_Ports_lost : ((4, 3) : Nat × Nat) ∈ [(4, 3), (6, 5), (8, 7), (10, 9)] := by decide
theorem wit_Ports_retrain : retraining.retraining = true ∧ retraining.down = false ∧ retraining.stored = [] ∧ retraining.sending = [] ∧
    s0.outbox = [] := by decide
theorem wit_Ports_rollover : port0.keys.length = 2 ∧ port0.slot ≤ 1 ∧ twoKeys port0.peerKeys = false ∧ [(2 : Byte)] ≠ [] := by decide
theorem wit_Ports_undelivered : s0.partOfJob (packet 3 (2 ^ 15) 0 8 []).job = some 0 ∧ (packet 3 (2 ^ 15) 0 8 []).cls < 2 ∧
    (asking 3).outstanding.find? (fun o => o.core == endLocal 0 && o.tag == 0 && o.ptype == 3) = some (wait0 3) := by decide

/-! ## Registers and Ramzu -/

theorem wit_Registers_queues : (0 : Nat) < ((queued none).part 0).queueCount ∧
    2 ^ (((queued none).part 0).queue 0).size < (17 + 65536 - (((queued none).part 0).queue 0).head) % 65536 ∧
    (16 + 65536 - (((queued none).part 0).queue 0).head) % 65536 ≤ 2 ^ (((queued none).part 0).queue 0).size := by decide
theorem wit_Registers_part : bitsOf 0 12 0 < (s0.part 0).domains ∧ 12 ≤ bitsOf (56 * 2 ^ 58) 63 58 ∧ bitsOf (56 * 2 ^ 58) 63 58 ≤ 56 := by
  decide
theorem wit_Registers_cluster : (s0.cluster 0).tasks = [] ∧ (s0.cluster 0).parked = [] ∧ s0.gangsOn 0 = false ∧
    (∀ r ∈ (s0.cluster 0).rings, r.2.en = false) ∧ bitsOf (1024 * 2 ^ 16) 10 0 + bitsOf (1024 * 2 ^ 16) 26 16 ≤ 1024 ∧
    1024 < bitsOf (1024 * 2 ^ 16 + 1) 10 0 + bitsOf (1024 * 2 ^ 16 + 1) 26 16 := by decide

/-- RING_CFG of a ring of one slot of 64 bytes. -/
def cfg : Nat := 2 ^ 63 + 6 * 2 ^ 20

theorem wit_Registers_ring : ((s0.cluster 0).ring 15).en = false ∧ bitsOf cfg 63 63 = 1 ∧ bitsOf cfg 24 20 = 6 ∧
    bitsOf cfg 14 0 * 64 + (bitsOf cfg 43 32 + 1) * 2 ^ 6 ≤ ({ s0.cluster 0 with ringArea := 1 } : Cluster).ringArea * 2048 ∧
    (ringed.cluster 0 |>.ring 3).en = true ∧
    ((on { sup with wait := .ring 0 3 .free 4 }).thread 0).map (·.wait) = some (.ring 0 3 .free 4) := by decide
theorem wit_Registers_core : s0.coreEmpty 1 = true ∧ s0.coreEmpty 0 = false ∧ s0.thread (1 * 4 + 3) = none ∧
    ({ s0.core 1 with clsSplit := 4 } : Core).clsNow ≠ 4 ∧ s0.thread 0 = some sup ∧ (s0.core (coreOfKey 0)).mx = none := by decide

/-- The package whose core 0 has consumed poison. -/
def poisoned : State := s0.setCore 0 { s0.core 0 with consumed := some (5, 0) }

theorem wit_Ramzu_kill : (poisoned.core 0).consumed = some (5, 0) ∧ (poisoned.core 0).killed = false ∧
    poisoned.recent poisoned.pkg.kills 0 killWindow < 2 ∧
    (∀ t ∈ coreSlots 0, ((poisoned.thread t).all fun th => th.baseKind != .gang) = true) ∧
    2 ≤ ({ poisoned with pkg := { poisoned.pkg with kills := [(0, 0), (0, 0)] } } : State).recent [(0, 0), (0, 0)] 0 killWindow := by
  decide
theorem wit_Ramzu_test : ((s0.setCore 5 { s0.core 5 with killed := true }).core 5).killed = true ∧
    s0.pkg.present (clusterOfCore 5) = true ∧ (s0.cluster (clusterOfCore 5)).contained = false ∧
    s0.ownerOfGranule 0 = some 0 ∧ (s0.part 0).ending = false := by decide

/-- Partition 0 after a double trap, with an event for its supervisor. -/
def relaunching : State :=
  { s0.setPart 0 { s0.part 0 with mchecks := [⟨1⟩] } with threads := [] }

theorem wit_Ramzu_relaunch : (relaunching.part 0).live = true ∧ (relaunching.part 0).ending = false ∧
    relaunching.supervisorSlot 0 = none ∧ (relaunching.part 0).mchecks = [⟨1⟩] ∧ (relaunching.relaunchSlot 0).isSome = true := by
  decide
theorem wit_Ramzu_ageing : s0.pkg.present 0 = true ∧
    Nat.max s0.pkg.clkFloor (s0.pkg.clkMax - lowerings [100, 100, 100, 100] [100, 95, 100, 100]) <
      Nat.min (s0.cluster 0).clockMax s0.pkg.clkMax ∧ driftAbove [100, 100, 100, 100] [100, 95, 100, 100] 13 = false ∧
    driftAbove [100, 100, 100, 100] [100, 86, 100, 100] 13 = true ∧
    Nat.max s0.pkg.clkFloor (s0.pkg.clkMax - lowerings [100, 100, 100, 100] [100, 86, 100, 100]) = s0.pkg.clkFloor := by decide

/-- Errors that the hardware finds, in a core, in memory, in a copy of a cluster's state and in another unit's. -/
theorem wit_Ramzu_errors : (s0.core 0).killed = false ∧ (s0.core 0).consumed = none ∧ (2 : Nat) ^ 40 ≤ tilePlace 0 0 ∧
    s0.pkg.present 0 = true ∧ (s0.cluster 0).contained = false ∧ 23 ∉ s0.pkg.failedGroups := by decide
theorem wit_Ramzu_safe : ({ s0.pkg with safe := true, stage := 6 } : Package).stage = 6 := rfl

/-- A request for granule 1. -/
def wanted : PartSpec := ⟨[1], [2 ^ 35], 1, 1, 1, 1, 1, 5, 0x10000, []⟩

theorem wit_Ramzu_create : booted.freePart = some 1 ∧ (booted.launchSlot wanted.granules).isSome = true ∧
    booted.grants wanted = true := by decide +kernel
theorem wit_Ramzu_teardown : let s := { s0.setPart 0 { s0.part 0 with ending := true } with now := 1500000 }
    (s.part 0).live = true ∧ (s.part 0).ending = true ∧ (s.part 0).fences = 0 ∧ (s.part 0).fencedAt + 1500000 ≤ s.now := by decide
theorem wit_Ramzu_spdm : let s : State := { booted with pkg := { booted.pkg with stage := 8 } }
    s.hears (.vf 0) = true ∧ s.hears .pf = true ∧ booted.hears .pf = false ∧ (s.measured (.vf 0) 5).isSome = true ∧
    s.measured .pf 5 = none ∧ ((List.replicate 32 (0 : Byte)).length = 32) := by decide
theorem wit_Registers_host : ({ booted with pkg := { booted.pkg with stage := 8 } } : State).functionReady 1 = true ∧
    (8 : Nat) % 8 = 0 ∧ 8 < 0x400000 ∧ (2 : Nat) % 4 ≠ 0 := by decide
theorem wit_Ramzu_tdisp : (s0.part 0).tdisp = .unlocked ∧ ({ s0.part 0 with tdisp := .locked } : Part).tdisp = .locked := by decide
theorem wit_Ramzu_links : (23 : Nat) < 24 ∧ 23 ∉ s0.pkg.failedGroups ∧ (∀ f ∈ s0.pkg.failedGroups, f / 4 ≠ 23 / 4) ∧
    ({ s0.pkg with failedGroups := [20] } : Package).failedGroups = [20] ∧ 20 / 4 = 23 / 4 := by decide

/-! ## A contour register, a waiting gang, and a cut -/

/-- Register 2 over 4 KiB of e4m3 elements between −8 and 8, and no register before it. -/
def limits (act : Nat) : Contour := ⟨0x5000000000, 0x5000001000, 0xC020000000000000, 0x4020000000000000, 3, act, 0⟩

theorem wit_ContourChecks : (∀ m < 16, (((Map.find ([] : Map Contour) m).map (·.act)).getD 0 = 0)) ∧
    (∀ act ∈ [1, 2, 3], Map.find ([(2, limits act)] : Map Contour) 2 = some (limits act)) ∧ (limits 1).fmt ≤ 0x0C ∧
    (limits 1).base % 64 = 0 ∧ boundAdmitted 3 (limits 1).low = true ∧ boundAdmitted 3 (limits 1).high = true ∧
    (∀ m < 2, ((Map.find ([(2, limits 1)] : Map Contour) m).map (·.act)).getD 0 = 0) := by decide +kernel

/-- Element 4 of one over f32, a NaN, is covered by a write of four bytes; no element is covered by one below the range. -/
theorem wit_ContourChecks_elements : let c := { limits 3 with fmt := 0 }
    (8 * Nat.max 0x5000000010 c.base ≤ 8 * c.base + 32 * 4 ∧ 8 * c.base + 32 * (4 + 1) ≤ 8 * Nat.min (0x5000000010 + 4) c.limit) ∧
    (fmtValue c.fmt (leNat (leBytes 4 0x7FC00000) / 2 ^ (8 * c.base + 32 * 4 - 8 * 0x5000000010) % 2 ^ 32)).isNan = true ∧
    ∀ j : Nat, ¬(8 * (limits 3).base + 8 * (j + 1) ≤ 8 * Nat.min (0x4000000000 + 4) (limits 3).limit) := by
  refine ⟨by decide, by decide, fun j h => ?_⟩
  have e : Nat.min (0x4000000000 + 4) 0x5000001000 = 0x4000000004 := by decide
  change 8 * 0x5000000000 + 8 * (j + 1) ≤ 8 * Nat.min (0x4000000000 + 4) 0x5000001000 at h
  omega

/-- FCAN of a command that has not stopped is not complete. -/
theorem wit_FutureInstructions_waits : cancelling.wait = .answer .cancelled 0 1 ∧ cancelling.getX 1 = 32 ∧
    ({ on cancelling with commands := [(0, { order 8192 1 [0, 0, 0] true with future := 32 })] } : State).cancelWaits 32 = true := by
  decide

/-- The page at 0x10000 with a domain table and the header of a field gang of one thread, translated by the control die. -/
def fields : State :=
  let s := exported.store 0x10040 (leBytes 8 (0x5A36140000000000 + 8 * 2 ^ 34 + 4 * 2 ^ 28) ++ leBytes 8 (2 ^ 20))
  { s with now := 262144, threads := [] }

/-- A record of priority 2 for it, at the head of queue 0, while a gang of lower priority keeps slot 0. -/
def launch : List Word := (nop.set 0 (BitVec.ofNat 64 (2 * 2 ^ 56 + 2 * 2 ^ 54 + 31 * 2 ^ 48))).set 1 0x10050
def weaker : Gang := { gang0 with hdr := { Header.all with rings := 0 } }
def contended : State :=
  { fields.setPart 0 { fields.part 0 with
      gpe := true, gsaveSize := 1, queueCount := 1
      queues := [(0, { LaunchQueue.reset with enable := true, mapped := true, tail := 1, record := some launch })] } with
    gangs := [(0, weaker)] }

theorem wit_Distributor_preemption : (contended.waitingGang (sourceOf 0)).map (fun l =>
    (contended.placeable l, (contended.gangVictim l).map (·.1))) = some (false, some 0) ∧
    (contended.part 0).gpe = true ∧ (sourceOf 0).part = some 0 ∧ contended.stoppingGang 0 = none := by decide +kernel

/-- The weaker gang as it is stopped. -/
def stopped : Gang := { weaker with stopping := true, saveAt := [0] }
theorem wit_Distributor_stop : let s : State := { contended with gangs := [(0, stopped)] }
    s.stoppingGang 0 = some (0, stopped) ∧ s.unsettledThread stopped = none ∧ s.handled stopped = false ∧
    stopped.saved = [] := by decide +kernel

/-- The gang once its threads are saved, with a line of its save still to be written. -/
def saving : Gang := { stopped with saved := [(0, sup)], writes := [(0x10000, List.replicate 64 1)] }
theorem wit_Distributor_saves : saving.saved ≠ [] ∧ ({ saving with writes := [] } : Gang).writes = [] ∧
    fields.hostWaits saving.part 0 0x10000 = false ∧
    (fields.serviceStore saving.part 0 0x10000 (List.replicate 64 1)).toOption.isSome = true ∧
    ((fields.setPart 0 { fields.part 0 with xcache := [] }).serviceStore saving.part 0 0x10000 [1]).toOption.isSome = false := by
  decide +kernel


/-! ## Results, from the spec's worked examples -/

/-- The thread of slot 0 after one instruction. -/
def after (i : Instr) (th : Thread) : Option Thread :=
  match exec i (on th) with
  | .next t => t.thread 0
  | _ => none

/-- A v register with two 32-bit lanes. -/
def lanes2 (a b : Nat) : VWord := BitVec.ofNat 256 (a + b * 2 ^ 32)

-- 07 R199, R200 by hand: wrap at 2⁶⁴, and a signed comparison.
theorem test_addi_wraps : (after (.addi un 5 1 1) (x1 0xFFFFFFFFFFFFFFFF)).map (·.getX 5) = some 0 := by decide
theorem test_min_signed : (after (.min un 5 1 0) (x1 0xFFFFFFFFFFFFFFFF)).map (·.getX 5) = some 0xFFFFFFFFFFFFFFFF := by decide
theorem test_li_sign : (after (.li un 5 0x8000) sup).map (·.getX 5) = some 0xFFFFFFFFFFFF8000 := by decide
theorem test_x0_stays : (after (.li un 0 7) sup).map (·.getX 0) = some 0 := by decide
-- 08, two loops with one end: the words, the skip of a zero count by hand, and the step that leaves both levels.
theorem test_loopi_opens : (after (.loopi un 4 5) sup).map (fun t => (t.lact0, t.lcount0, t.llen0, t.lend)) =
    some (true, 4, 5, 0x10010) := by decide
theorem test_loops_end : (after (.addi un 2 2 1)
    { sup with lact0 := true, lact1 := true, lcount0 := 1, lcount1 := 1, lend := 0x10004, llen0 := 5, llen1 := 1 }).map
      (fun t => (t.lact0, t.lact1, t.pc, t.getX 2)) = some (false, false, 0x10004, 1) := by decide
-- 06, the step of SRSTATE from 1.
theorem test_srstate : srDraws 1 1 = ([0x40822041, 0], 0x40822041) := by decide +kernel
-- 10, one block to e2m1.
theorem test_vcvt_block : (after (.vcvt un false 0x00 0x07 8 0) { sup with v := sup.v.set 0 (lanes2 0x40400000 0xBF400000) }).map
    (fun t => (t.getV 8, t.getE 7, t.fstat)) = some (0xB7, 0x7E, 0) := by decide +kernel
-- 10, the tree order: 16,777,222 with NX.
def tree : VWord := BitVec.ofNat 256 (leNat (leBytes 4 0x4B800000 ++ (List.replicate 7 (leBytes 4 0x3F800000)).flatten))
theorem test_vred_tree : (after (.vredSum un .f32 2 1) { sup with v := sup.v.set 1 tree }).map
    (fun t => (t.getV 2, t.fstat)) = some (0x4B800003, 1) := by decide +kernel
-- 10, three contributions: 2.25 + 1.5, and the rescaling by 3 / 2.
theorem test_vmsum : (after (.vmsum un 2 8 1) { x1 1 with v := (sup.v.set 2 (lanes2 0x3FC00000 0)).set 8 (lanes2 0x40100000 0) }).map
    (fun t => t.getV 2) = some 0x40700000 := by decide +kernel
theorem test_vrscl : (after (.vrscl un 2 2 1) { x1 0x300000002 with v := sup.v.set 2 (lanes2 0x40700000 0) }).map
    (fun t => (t.getV 2, t.fstat)) = some (0x40B40000, 0) := by decide +kernel
-- 09, clamping an FP8 tensor: what the store carries, and COUNT.
theorem test_clamp : let c : Contour := ⟨0x5000000000, 0x5000001000, 0xC020000000000000, 0x4020000000000000, 3, 2, 0⟩
    (match contourCheck [(2, c)] 0x5000000010 (leBytes 4 0xFFC05838) with
      | (cs, .pass d) => (d, (cs.find 2).map (·.count))
      | _ => (0, none)) = (0xD0C05038, some 2) := by decide +kernel
-- 06, integer saturation per block, and one rounding per block's sum.
theorem test_saturates : clamped 32 2147484000 = 2147483647 ∧ clamped 32 (2147483647 - 500) = 2147483147 := by decide
-- 20, the descriptor of the load of scale_rows.
theorem test_descriptor : descriptor 0 2 0 0 0 1 0 9 0 0 0 + (⟨3, 4, 1⟩ : Refused).bits = 0x040212000D004000 := by decide
-- 02, decoding a handle.
theorem test_handle : let f : Word := 0x0001A46008000124
    handleNode f = 3 ∧ handleCluster f = 145 ∧ handleSlot f = 2050 ∧ handleGen f = 9 ∧ handlePart f = 4 ∧
    mkHandle 3 145 2050 9 4 = f := by decide
-- 17 R370, R371 by hand: BRK of an S-level supervisor thread leaves its cause, FPC and level in x1 and the record.
theorem test_trap_record : (match (framed.enterHeld 0 { sup with trap := some { brk with stored := some 24 } }).thread 0 with
    | some t => (t.pc == 0x10100) && t.supervisor && (t.getX 4 == 0x10000) && (t.frames.length == 1)
    | none => false) = true := by decide +kernel
end Sys2Proof.Tests
end

section
/-!
The step of the hardware loops (spec/08 R210): the body's addresses in the spec's words, what each branch of the step
does, and the statement that puts the branches together.
-/

namespace Sys2Proof.Loops

open Sys2Proof.Machine

/-! ## Addresses of the loop bodies -/

/-- The model takes a distance from the number a field holds, the spec from the field itself in the width of an address. -/
theorem halves_toNat {k : Nat} (n : BitVec k) : halves n.toNat = 2 * n.zeroExtend 56 := by
  simp [halves, BitVec.ofNat_mul, BitVec.ofNat_toNat]

theorem halves_toNat_succ {k : Nat} (n : BitVec k) : halves (n.toNat + 1) = 2 * (n.zeroExtend 56 + 1) := by
  rw [BitVec.mul_add, ← halves_toNat]
  simp [halves, Nat.mul_add, BitVec.ofNat_add]

theorem start0_eq (th : Thread) : th.start0 = th.lend - 2 * (th.llen0.zeroExtend 56 + 1) := by
  rw [Thread.start0, halves_toNat_succ]

theorem end1_eq (th : Thread) : th.end1 = th.lend - 2 * th.dend.zeroExtend 56 := by
  rw [Thread.end1, halves_toNat]

theorem start1_eq (th : Thread) : th.start1 = th.end1 - 2 * (th.llen1.zeroExtend 56 + 1) := by
  rw [Thread.start1, halves_toNat_succ]

/-! ## Level 0 -/

section
variable {th : Thread} {next : BitVec 56}

/-- Before level 0's last pass the step goes back to the start of its body. -/
theorem stepLevel0_repeats (hact : th.lact0 = true) (hend : next = th.lend) (hcount : th.lcount0 - 1 ≠ 0) :
    th.stepLevel0 next = { th with lcount0 := th.lcount0 - 1, pc := th.start0 } := by
  rw [Thread.stepLevel0, if_pos (by simp [hact, hend])]
  exact if_pos hcount

/-- On its last pass the step leaves level 0. -/
theorem stepLevel0_leaves (hact : th.lact0 = true) (hend : next = th.lend) (hcount : th.lcount0 - 1 = 0) :
    th.stepLevel0 next = { th with lcount0 := th.lcount0 - 1, lact0 := false, pc := next } := by
  rw [Thread.stepLevel0, if_pos (by simp [hact, hend])]
  exact if_neg (not_not.2 hcount)

theorem stepLevel0_of_not_end (h : ¬ (th.lact0 = true ∧ next = th.lend)) :
    th.stepLevel0 next = { th with pc := next } := by
  rw [Thread.stepLevel0, if_neg (by simpa using h)]

/-! ## Level 1 -/

/-- Before level 1's last pass the step goes back to the start of its body. -/
theorem step_repeats (hact : th.lact1 = true) (hend : next = th.end1) (hcount : th.lcount1 - 1 ≠ 0) :
    th.step next = { th with lcount1 := th.lcount1 - 1, pc := th.start1 } := by
  rw [Thread.step, if_pos (by simp [hact, hend])]
  exact if_pos hcount

/-- On its last pass the step leaves level 1, whose end is its own. -/
theorem step_leaves (hact : th.lact1 = true) (hend : next = th.end1) (hcount : th.lcount1 - 1 = 0)
    (hdend : th.dend ≠ 0) :
    th.step next = { th with lcount1 := th.lcount1 - 1, lact1 := false, pc := next } := by
  rw [Thread.step, if_pos (by simp [hact, hend])]
  exact (if_neg (not_not.2 hcount)).trans (if_pos hdend)

/-- Where both levels end on one instruction, the exhausted inner level hands the step to the outer one. -/
theorem step_falls_to_level0 (hact : th.lact1 = true) (hend : next = th.end1) (hcount : th.lcount1 - 1 = 0)
    (hdend : th.dend = 0) :
    th.step next = Thread.stepLevel0 { th with lcount1 := th.lcount1 - 1, lact1 := false } next := by
  rw [Thread.step, if_pos (by simp [hact, hend])]
  exact (if_neg (not_not.2 hcount)).trans (if_neg (not_not.2 hdend))

theorem step_of_not_end1 (h : ¬ (th.lact1 = true ∧ next = th.end1)) : th.step next = th.stepLevel0 next := by
  rw [Thread.step, if_neg (by simpa using h)]

end

/-! ## The step after an instruction -/

/-- Settles O6, by the branches of the step: level 1 first, then level 0, each at its end or not. -/
theorem nextStepsTheLoops : Obligations.NextStepsTheLoops := by
  intro th len next end1 start1 start0 level0
  have hend1 : th.end1 = end1 := end1_eq th
  have hstart1 : th.start1 = start1 := by rw [start1_eq, hend1]
  have hlevel0 (u : Thread) (hu : u.start0 = start0) : u.stepLevel0 next = level0 u := by
    simp only [level0]
    split_ifs with h hcount
    · rw [stepLevel0_repeats h.1 h.2 ((BitVec.pos_iff_ne_zero _).1 hcount), hu]
    · exact stepLevel0_leaves h.1 h.2 (BitVec.le_zero_iff.1 (BitVec.not_lt.1 hcount))
    · exact stepLevel0_of_not_end h
  refine congrArg (fun u : Thread => { u with stuck := none }) (?_ : th.step next = _)
  split_ifs with h hcount hdend
  · rw [step_repeats h.1 (h.2.trans hend1.symm) ((BitVec.pos_iff_ne_zero _).1 hcount), hstart1]
  · exact step_leaves h.1 (h.2.trans hend1.symm) (BitVec.le_zero_iff.1 (BitVec.not_lt.1 hcount)) hdend
  · rw [step_falls_to_level0 h.1 (h.2.trans hend1.symm) (BitVec.le_zero_iff.1 (BitVec.not_lt.1 hcount))
      (not_not.1 hdend)]
    exact hlevel0 _ (start0_eq th)
  · rw [step_of_not_end1 (hend1 ▸ h)]
    exact hlevel0 th (start0_eq th)

end Sys2Proof.Loops
end

section
/-!
The granules of the matrix instructions (spec/11 R264, R267, R276 to R278): those of byte ranges, what their checks and walks
leave alone, the loads of a bulk read, and the granules that a ZST cuts its bytes into.
-/

namespace Sys2Proof.Matrix

open Sys2Proof.Machine Sys2Proof.Laws Sys2Proof.Safety Sys2Proof.Claims

/-! ## The granules of byte ranges -/

/-- A granule put into an ascending list, where it is not there. -/
def insertGranule (l : List Nat) (g : Nat) : List Nat :=
  if l.contains g then l else l.takeWhile (· < g) ++ g :: l.dropWhile (· < g)

theorem mem_insertGranule {l : List Nat} {g x : Nat} : x ∈ insertGranule l g ↔ x ∈ l ∨ x = g := by
  unfold insertGranule
  split
  next h =>
    have hg : g ∈ l := by simpa using h
    exact ⟨.inl, fun hx => hx.elim id fun hx => hx ▸ hg⟩
  next =>
    conv_rhs => rw [← List.takeWhile_append_dropWhile (p := (· < g)) (l := l)]
    simp only [List.mem_append, List.mem_cons]
    tauto

theorem mem_foldl_insertGranule {gs l : List Nat} {x : Nat} : x ∈ gs.foldl insertGranule l ↔ x ∈ l ∨ x ∈ gs := by
  induction gs generalizing l with
  | nil => simp
  | cons g gs ih => rw [List.foldl_cons, ih, mem_insertGranule, List.mem_cons, or_assoc]

theorem granulesOf_eq_foldl (rs : List (Nat × Nat)) :
    granulesOf rs = (rs.flatMap fun r =>
      (List.range ((r.1 + r.2 - 1) / 64 + 1 - r.1 / 64)).map fun i => (r.1 / 64 + i) * 64).foldl insertGranule [] := rfl

/-- The granules of byte ranges are the multiples of 64 from the first to the last byte of a range. -/
theorem mem_granulesOf {rs : List (Nat × Nat)} {x : Nat} :
    x ∈ granulesOf rs ↔ x % 64 = 0 ∧ ∃ r ∈ rs, r.1 / 64 ≤ x / 64 ∧ x / 64 ≤ (r.1 + r.2 - 1) / 64 := by
  simp only [granulesOf_eq_foldl, mem_foldl_insertGranule, List.not_mem_nil, false_or, List.mem_flatMap, List.mem_map,
    List.mem_range]
  constructor
  · rintro ⟨r, hr, i, hi, rfl⟩
    exact ⟨by omega, r, hr, by omega, by omega⟩
  · rintro ⟨hx, r, hr, hlo, hhi⟩
    exact ⟨r, hr, x / 64 - r.1 / 64, by omega, by omega⟩

/-! ## What the checks of granules leave alone -/

/-- The slot that issues and the contour registers of every core are the same in two states. -/
def KeepsContours (s t : State) : Prop := t.cur = s.cur ∧ ∀ c : Nat, (t.core c).contours = (s.core c).contours

theorem KeepsContours.refl (s : State) : KeepsContours s s := ⟨rfl, fun _ => rfl⟩

theorem setCore_keepsContours {s : State} {c : Nat} {k : Core} (h : k.contours = (s.core c).contours) :
    KeepsContours s (s.setCore c k) := by
  refine ⟨rfl, fun n => ?_⟩
  by_cases hn : n = c
  · rw [hn, core_setCore, h]
  · rw [core_setCore_ne s k hn]

/-- A lookup changes nothing but the order of the PLB. -/
theorem plbLookup_keepsContours {s t : State} {c p dom va : Nat} {e : Option PlbEntry}
    (h : plbLookup s c p dom va = .ok (e, t)) : KeepsContours s t := by
  unfold plbLookup at h
  dsimp only at h
  split at h
  next =>
    cases h
    exact setCore_keepsContours rfl
  next =>
    split at h
    next => cases h
    next => cases h; exact .refl s
    next =>
      cases h
      exact setCore_keepsContours rfl

theorem checkTranslated_keepsContours {s t : State} {c info va desc : Nat} {th : Thread} {form : Form} {x : Checked}
    (h : checkTranslated s c th info va desc form = .ok (t, x)) : KeepsContours s t := by
  unfold checkTranslated at h
  split at h
  next => cases h
  next => cases h
  next hl =>
    dsimp only at h
    split_ifs at h <;> (cases h; exact plbLookup_keepsContours hl)

/-- The checks of an access change nothing but the PLB. -/
theorem checkAccess_keepsContours {s t : State} {n va size align desc : Nat} {th : Thread} {i : Instr} {form : Form}
    {x : Checked} (h : checkAccess s n th i va size align desc form = .ok (t, x)) : KeepsContours s t := by
  unfold checkAccess at h
  dsimp only at h
  split at h
  next => cases h
  next =>
  split at h
  next => cases h
  next =>
  split at h
  next => cases h
  next =>
    split at h
    case h_1 | h_2 | h_3 | h_4 => cases h
    case h_5 => cases h; exact .refl s
    case h_6 =>
      split at h
      · exact checkTranslated_keepsContours h
      · cases h; exact .refl s
  next =>
    split at h
    · cases h; exact .refl s
    · cases h
  next =>
    split at h
    next => cases h
    next =>
      split at h
      · cases h; exact .refl s
      · cases h
  next => exact checkTranslated_keepsContours h

/-! ## Bulk reads -/

/-- The accesses of a bulk read: one load of 64 bytes for each granule, to the granule's destination. -/
theorem bulkReads_loads {i : Instr} {th : Thread} {base : Nat} {desc : Nat → Nat} {dst : Nat → Dst} {taint : Bool}
    {gs : List Nat} {s t : State} {l : List Access} {move : Option Nat}
    (h : bulkReads i th base desc dst taint gs s = .ok (t, l, move)) :
    t.cur = s.cur ∧ List.Forall₂ (fun g x => x.op = .load ∧ x.size = 64 ∧ x.dst = dst g) gs l := by
  induction gs generalizing s t l move with
  | nil =>
    cases h
    exact ⟨rfl, .nil⟩
  | cons g gs ih =>
    rw [bulkReads] at h
    split at h
    next => cases h
    next hc =>
      split at h
      next => cases h
      next hr =>
        cases h
        obtain ⟨hcur, hl⟩ := ih hr
        exact ⟨hcur.trans (checkAccess_keepsContours hc).1, .cons ⟨rfl, rfl, rfl⟩ hl⟩

theorem withBulk_of_ok {i : Instr} {s t : State} {th : Thread} {base n : Nat} {desc : Nat → Nat} {dst : Nat → Dst}
    {taint : Bool} {k : State → List Access → Res} {l : List Access}
    (hd : th.overlapDeferred base (64 * n) = false) (hw : th.overlapWait base (64 * n) = false)
    (h : bulkReads i th base desc dst taint (List.range n) s = .ok (t, l, none)) :
    withBulk i s th base n desc dst taint k = k t l := by
  simp [withBulk, hd, hw, h]

/-! ## The walks of a ZST -/

theorem foldl_cur {α : Type} {f : State → α → State} (hf : ∀ s x, (f s x).cur = s.cur) (l : List α) (s : State) :
    (l.foldl f s).cur = s.cur := by
  induction l generalizing s with
  | nil => rfl
  | cons x l ih => rw [List.foldl_cons, ih, hf]

theorem s2refusal_cur (s : State) (p va : Nat) (r : Refused) : (s.s2refusal p va r).cur = s.cur := by
  unfold State.s2refusal
  dsimp only
  split_ifs <;> rfl

theorem retire_cur (s : State) (t id : Nat) : (s.retire t id).cur = s.cur := by
  unfold State.retire
  split <;> rfl

theorem dropFill_cur (s : State) (t : Nat) (dst : Dst) : (s.dropFill t dst).cur = s.cur := by
  cases dst <;> rfl

theorem refuseAccess_cur (s : State) (t : Nat) (a : Access) (r : Refused) : (s.refuseAccess t a r).cur = s.cur := by
  unfold State.refuseAccess
  split
  next =>
    dsimp only
    split
    · rw [post_cur, retire_cur, s2refusal_cur]
    · rw [setThread_cur, dropFill_cur, s2refusal_cur]
  next => rfl

theorem refuseWaiting_cur (s : State) (t line : Nat) : (s.refuseWaiting t line).cur = s.cur := by
  unfold State.refuseWaiting
  split
  next => rfl
  next =>
    refine foldl_cur (fun s a => ?_) _ s
    split
    · split
      · exact refuseAccess_cur ..
      · rfl
    · rfl

theorem serveWalk_cur (s : State) (p e : Nat) (a : Access) : (s.serveWalk p e a).cur = s.cur := by
  unfold State.serveWalk
  refine (foldl_cur (fun s x => ?_) _ _).trans ?_
  · split
    · exact refuseWaiting_cur ..
    · rfl
  · split
    · split <;> rfl
    · rfl

/-- Walks that refuse nothing pass every access on. -/
theorem zstWalks_of_passed {n : Nat} {th : Thread} {l l' : List Access} {s t : State}
    (h : zstWalks n th l s = (t, l', none)) : l' = l ∧ t.cur = s.cur := by
  induction l generalizing s t l' with
  | nil =>
    cases h
    exact ⟨rfl, rfl⟩
  | cons a l ih =>
    rw [zstWalks] at h
    dsimp only at h
    split at h
    next =>
      split at h
      next => cases h
      next =>
        simp only [Prod.mk.injEq] at h
        obtain ⟨ht, hl, hr⟩ := h
        obtain ⟨hl', hcur⟩ := ih (Prod.ext ht (Prod.ext rfl hr))
        refine ⟨hl ▸ congrArg _ hl', hcur.trans ?_⟩
        split
        · exact serveWalk_cur ..
        · rfl
    next =>
      simp only [Prod.mk.injEq] at h
      obtain ⟨ht, hl, hr⟩ := h
      obtain ⟨hl', hcur⟩ := ih (Prod.ext ht (Prod.ext rfl hr))
      exact ⟨hl ▸ congrArg _ hl', hcur⟩

/-! ## The checks of a ZST -/

theorem contourFrom_nil (va size fuel n data : Nat) : contourFrom va size fuel n [] data = ([], .pass data) := by
  induction fuel generalizing n with
  | zero => rfl
  | succ fuel ih => exact ih (n + 1)

/-- Where no contour register is set, a write passes as it is. -/
theorem contourCheck_nil (va : Nat) (data : List Byte) : contourCheck [] va data = ([], .pass (leNat data)) :=
  contourFrom_nil ..

theorem leBytes_leNat (bs : List Byte) : leBytes bs.length (leNat bs) = bs := by
  induction bs with
  | nil => rfl
  | cons b bs ih =>
    have hmod : BitVec.ofNat 8 (b.toNat + 256 * leNat bs) = b := BitVec.eq_of_toNat_eq (by simp [b.isLt])
    have hdiv : (b.toNat + 256 * leNat bs) / 256 = leNat bs := by omega
    rw [List.length_cons, leNat, leBytes, hmod, hdiv, ih]

/-- An access is the plain G = 0 store of a granule of a ZST. -/
def StoresGranule (g : ZGranule) (x : Access) : Prop :=
  x.op = .store ∧ x.info = g.va ∧ x.size = g.bytes.length ∧ x.home = false ∧ x.ord = .plain ∧ x.dst = .none ∧
    x.state = .issued

/-- Checks of a ZST that no granule fails give one store for each, of its own bytes where no contour register is set. -/
theorem zstCheck_stores {i : Instr} {th : Thread} {z : ZTile} {fmt : Nat} {gs : List ZGranule} {s t : State}
    {l : List Access} {move : Option Nat} (h : zstCheck i th z fmt gs s = ⟨t, l, none, move⟩) :
    t.cur = s.cur ∧ List.Forall₂ (fun g x => StoresGranule g x ∧
      ((s.core (coreOfKey s.cur)).contours = [] → x.data = g.bytes)) gs l := by
  induction gs generalizing s t l move with
  | nil =>
    cases h
    exact ⟨rfl, .nil⟩
  | cons g gs ih =>
    have ih (s' : State) (hs : (zstCheck i th z fmt gs s').stop = none) :=
      ih (s := s') (t := (zstCheck i th z fmt gs s').s) (l := (zstCheck i th z fmt gs s').accs)
        (move := (zstCheck i th z fmt gs s').move) (by rw [← hs])
    rw [zstCheck] at h
    dsimp only at h
    split at h
    next => cases h
    next s1 c hc =>
      obtain ⟨hcur1, hcontours1⟩ := checkAccess_keepsContours hc
      rw [hcur1, hcontours1] at h
      split at h
      next => cases h
      next d hd =>
        simp only [ZChecked.mk.injEq] at h
        obtain ⟨rfl, rfl, hstop, -⟩ := h
        obtain ⟨hcur, hall⟩ := ih _ hstop
        simp only [setCore_cur, core_setCore, hcur1] at hcur hall
        refine ⟨hcur, .cons ⟨⟨rfl, rfl, rfl, rfl, rfl, rfl, rfl⟩, fun h0 => ?_⟩
          (hall.imp fun g x hx => ⟨hx.1, fun h0 => hx.2 (by rw [h0, contourCheck_nil])⟩)⟩
        rw [h0, contourCheck_nil] at hd
        cases hd
        exact leBytes_leNat _

/-! ## The bytes and the granules of a ZST -/

theorem length_packBytes (wid : Nat) (l : List Nat) : (packBytes wid l).length = l.length * wid / 8 := length_leBytes ..

theorem length_tile (s : State) (c : Nat) (z : ZTile) : (s.tile c z).length = 1024 := by simp [State.tile, codesOf]

theorem chunks_get {α : Type} (k n i : Nat) (l : List α) :
    (chunks k n l)[i]? = if i < n ∧ k * i < l.length then some ((l.drop (k * i)).take k) else none := by
  induction n generalizing i l with
  | zero => simp [chunks]
  | succ n ih =>
    rw [chunks]
    cases l with
    | nil => simp
    | cons x l =>
      rw [List.isEmpty_cons, if_neg (by simp)]
      cases i with
      | zero => simp
      | succ i =>
        rw [List.getElem?_cons_succ, ih, List.length_drop, List.drop_drop, Nat.mul_succ, Nat.add_comm (k * i)]
        congr 1
        exact propext (and_congr (by omega) (by omega))

theorem length_chunks_le {α : Type} (k n : Nat) (l : List α) : (chunks k n l).length ≤ n := by
  induction n generalizing l with
  | zero => simp [chunks]
  | succ n ih =>
    rw [chunks]
    split
    · simp
    · simpa using ih _

theorem flatten_chunks {α : Type} {k n : Nat} {l : List α} (h : l.length ≤ k * n) : (chunks k n l).flatten = l := by
  induction n generalizing l with
  | zero => simp_all [chunks]
  | succ n ih =>
    rw [chunks]
    split
    next hl => simpa using hl.symm
    next =>
      rw [List.flatten_cons, ih (by rw [List.length_drop, Nat.mul_succ] at *; omega), List.take_append_drop]

theorem length_of_mem_chunks {α : Type} {k n : Nat} {l c : List α} (h : c ∈ chunks k n l) : c.length ≤ k := by
  induction n generalizing l with
  | zero => simp [chunks] at h
  | succ n ih =>
    rw [chunks] at h
    split at h
    · simp at h
    · rcases List.mem_cons.1 h with rfl | h
      · exact List.length_take_le ..
      · exact ih h

/-- A block has one element code for each value that has a rounding. -/
theorem length_encodeBlock {fmt : Nat} {f : FloatFmt} {vs : List Machine.Num} {modes : List Rounding}
    (h : vs.length ≤ modes.length) : (encodeBlock fmt f vs modes).2.1.length = vs.length := by
  unfold encodeBlock
  split
  · simp
  · dsimp only
    split <;> simp [h]

/-- A ZST of a whole tile writes 1,024 elements of its width, and at most one scale for each row. -/
theorem length_zstBytes (fmt : Nat) {z : List Nat} (hz : z.length = 1024) :
    (zstBytes fmt z).1.length = 128 * fmtWidth fmt ∧ (zstBytes fmt z).2.1.length ≤ 32 := by
  unfold zstBytes
  dsimp only
  split
  next h =>
    rw [length_packBytes, hz, fmtWidth, if_pos h]
    simp
  next =>
  split
  next f _ =>
    split
    · simp only [length_packBytes, List.length_map, hz, List.length_nil]
      omega
    · have hrow (row : List Nat) (h : row ∈ chunks 32 32 z) :
          (encodeBlock fmt f (row.map (fmtValue 0x00)) (List.replicate 32 .rne)).2.1.length = row.length := by
        rw [length_encodeBlock (by simpa using length_of_mem_chunks h), List.length_map]
      have hsum : ((chunks 32 32 z).map List.length).sum = 1024 := by
        rw [← List.length_flatten, flatten_chunks (by omega), hz]
      have hcount := length_chunks_le 32 32 z
      simp only [length_packBytes, List.length_flatMap, List.length_map, List.map_map, Function.comp_def]
      rw [List.map_congr_left hrow, hsum]
      omega
  next =>
    simp only [length_packBytes, List.length_map, hz, List.length_nil]
    omega

theorem fmtWidth_le_of_zstFormats {fmt : Nat} (h : zstFormats.contains fmt = true) : fmtWidth fmt ≤ 32 := by
  have hall : ∀ f ∈ zstFormats, fmtWidth f ≤ 32 := by decide
  exact hall fmt (by simpa using h)

theorem length_of_get {α : Type} {l : List α} {size : Nat} {f : Nat → α}
    (h : ∀ n, l[n]? = if 64 * n < size then some (f n) else none) : l.length = (size + 63) / 64 := by
  have hlt (n : Nat) : n < l.length ↔ 64 * n < size := by
    rw [← isSome_getElem? l n, h n]
    split <;> simp [*]
  have hlast := hlt (l.length - 1)
  have hend := hlt l.length
  omega

/-- The granules of a ZST cut its elements and then its scales, which begin a granule of their own. -/
theorem zstGranules_get {base : Nat} {bs scales : List Byte} (hbs : bs.length % 64 = 0) (hlen : bs.length ≤ 4096)
    (hscales : scales.length ≤ 64) (n : Nat) :
    (zstGranules base bs scales)[n]? =
      if 64 * n < (bs ++ scales).length then
        some ⟨n, (base + 64 * n) % 2 ^ 64, ((bs ++ scales).drop (64 * n)).take 64⟩
      else none := by
  have helements (n : Nat) :
      ((chunks 64 64 bs).mapIdx fun n b => (⟨n, (base + 64 * n) % 2 ^ 64, b⟩ : ZGranule))[n]? =
        if 64 * n < bs.length then some ⟨n, (base + 64 * n) % 2 ^ 64, (bs.drop (64 * n)).take 64⟩ else none := by
    rw [List.getElem?_mapIdx, chunks_get]
    by_cases h : 64 * n < bs.length
    · rw [if_pos ⟨by omega, h⟩, if_pos h, Option.map_some]
    · rw [if_neg (fun h' => h h'.2), if_neg h, Option.map_none]
  have hcount := length_of_get helements
  rw [zstGranules]
  split
  next hempty => rw [helements, List.isEmpty_iff.1 hempty, List.append_nil]
  next hne =>
    rw [List.getElem?_append, helements, hcount, List.length_append]
    split
    next hn =>
      have hin : 64 * n < bs.length := by omega
      rw [if_pos hin, if_pos (by omega), List.drop_append_of_le_length (by omega),
        List.take_append_of_le_length (by rw [List.length_drop]; omega)]
    next hn =>
      by_cases hlast : n = bs.length / 64
      · have hbytes : 64 * n = bs.length := by omega
        have hpos : 0 < scales.length := by simpa [List.length_pos_iff] using hne
        rw [if_pos (by omega), hbytes, List.drop_left, List.take_of_length_le hscales]
        simp [show (bs.length + 63) / 64 = n by omega]
      · rw [if_neg (by omega), List.getElem?_eq_none (by rw [List.length_singleton]; omega)]

end Sys2Proof.Matrix
end

section
/-!
What the matrix instructions issue (spec/11 R267, R270, R272, R276 to R279), one instruction after another, and the statement
that puts them together.
-/

namespace Sys2Proof.Matrix

open Sys2Proof.Machine Sys2Proof.Laws Sys2Proof.Safety Sys2Proof.Claims

/-! ## The occupancy of the unit -/

/-- The state in which an instruction occupies the unit of its core and has issued accesses. -/
def occupied (s : State) (th : Thread) (j : MxJob) (l : List Access) : State :=
  (s.setCore (coreOfKey s.cur) { s.core (coreOfKey s.cur) with mx := some j }).setThread s.cur ((th.addAll l).next 4)

theorem unitBusy_eq_false {k : Core} (hmx : k.mx = none) (hpass : k.passOut = []) : k.unitBusy = false := by
  rw [Core.unitBusy, hmx, hpass]
  rfl

/-- The granules that an MM or an MMR captures (11 R270, R272). -/
def mmGranules (pair : Nat) (u pass : Bool) (off ps : Nat) : List Nat :=
  granulesOf (if pass then rangesA pair u off ps ++ [(latchOffset false, 2048)] ++ [(latchOffset true, 2048)]
    else rangesA pair u off ps ++ [(latchOffset true, bytesB pair)])

/-- The bytes of the scale registers that a pair names (11 R265). -/
def scaleBytes (pair : Nat) (vs : Reg) (th : Thread) : List Byte :=
  (scaleRegs pair vs.val).flatMap fun n => leBytes 32 (th.getV (regNat n)).toNat

/-- The occupancy of an MM or an MMR with A at an offset of the core's window. -/
def mmJob (pair : Nat) (z : ZTile) (u pass : Bool) (off ps : Nat) (vs : Reg) (s : State) (th : Thread) : MxJob :=
  ⟨.mm pair z u off ps, some (s.cur % 4), [], (mmGranules pair u pass off ps).length, scaleBytes pair vs th, pass⟩

/-- An MM or MMR whose checks pass occupies the unit with its captures. -/
theorem mmRes_of_checked {i : Instr} {pair : Fin 22} {z : ZTile} {u la pass : Bool} {a b vs : Reg} {s : State}
    {th : Thread} {base : Word}
    (hbase : (if la then BitVec.ofNat 64 (windowBase + latchOffset false) else th.getX a) = base)
    (halign : base.toNat % 64 = 0)
    (hps : 15 ≤ pair.val → (th.getX b).toNat % 4 = 0 ∧ 256 ≤ (th.getX b).toNat)
    (hfirst : la = false → captureCheck s th i la base.toNat = none)
    (hgranules : ∀ x ∈ granulesOf (rangesA pair.val u base.toNat (th.getX b).toNat), captureCheck s th i la x = none) :
    mmRes i pair z u la pass a b vs s th =
      .done (occupied s th (mmJob pair.val z u pass (base.toNat - windowBase) (th.getX b).toNat vs s th)
        ((mmGranules pair.val u pass (base.toNat - windowBase) (th.getX b).toNat).map
          (captureAccess th (coreOfKey s.cur)))) := by
  have hfirst' : (if la then none else captureCheck s th i la base.toNat) = none := by
    cases la
    · exact hfirst rfl
    · rfl
  have hps' : ¬ (15 ≤ pair.val ∧ ((th.getX b).toNat % 4 ≠ 0 ∨ (th.getX b).toNat < 256)) := by
    rintro ⟨hplanes, hbad⟩
    have := hps hplanes
    omega
  have hnone := List.findSome?_eq_none_iff.2 hgranules
  rw [rangesA] at hnone
  unfold mmRes
  dsimp only
  rw [hbase, hfirst', hnone]
  dsimp only
  rw [if_neg (not_not.2 halign), if_neg hps']
  rfl

/-! ## MM -/

theorem flatMap_get {α β : Type} {f : α → List β} {k : Nat} (hf : ∀ a, (f a).length = k) {l : List α} {n q : Nat}
    (hn : n < l.length) (hq : q < k) : (l.flatMap f)[k * n + q]? = (f l[n])[q]? := by
  induction l generalizing n with
  | nil => simp at hn
  | cons a l ih =>
    rw [List.flatMap_cons]
    cases n with
    | zero => rw [List.getElem?_append_left (by simpa [hf] using hq)]; simp
    | succ n =>
      have hsub : k * (n + 1) + q - (f a).length = k * n + q := by rw [hf, Nat.mul_succ]; omega
      rw [List.getElem?_append_right (by rw [hf, Nat.mul_succ]; omega), hsub, ih (by simpa using hn)]
      simp

theorem leBytes_get {n q : Nat} (h : q < n) (v : Nat) : (leBytes n v)[q]? = some (BitVec.ofNat 8 (v / 256 ^ q)) := by
  induction n generalizing q v with
  | zero => omega
  | succ n ih =>
    cases q with
    | zero => simp [leBytes]
    | succ q =>
      rw [leBytes, List.getElem?_cons_succ, ih (by omega), Nat.div_div_eq_div_mul, pow_succ']

/-- Byte `q` of the `n`-th scale register of an occupancy is lane `q` of that register. -/
theorem scaleByte_scaleBytes {pair n q : Nat} (hn : n < scaleSpan pair) (hq : q < 32) (vs : Reg) (th : Thread) :
    scaleByte (scaleBytes pair vs th) n q = (lane 8 q (th.getV (regNat (vs.val + n)))).toNat := by
  have hspan : n < (scaleRegs pair vs.val).length := by simpa [scaleRegs, span] using hn
  have hreg : (scaleRegs pair vs.val)[n] = vs.val + n := by simp [scaleRegs, span]
  rw [scaleByte, scaleBytes, flatMap_get (fun _ => length_leBytes ..) hspan hq, hreg, leBytes_get hq]
  simp [lane, Nat.shiftRight_eq_div_pow, pow_mul]

theorem mm_issues {s : State} {th : Thread} {g : Guard} {pair : Fin 22} {z : ZTile} {u la : Bool} {a b vs : Reg}
    {base : Word} (hi : Issues (.mm g pair z u la a b vs) s th)
    (hbase : (if la then BitVec.ofNat 64 (windowBase + latchOffset false) else th.getX a) = base)
    (hfree : (s.core (coreOfKey s.cur)).unitBusy = false)
    (halign : base.toNat % 64 = 0)
    (hps : 15 ≤ pair.val → (th.getX b).toNat % 4 = 0 ∧ 256 ≤ (th.getX b).toNat)
    (hgranules : ∀ x ∈ granulesOf (rangesA pair.val u base.toNat (th.getX b).toNat),
      captureCheck s th (.mm g pair z u la a b vs) la x = none)
    (hfirst : captureCheck s th (.mm g pair z u la a b vs) la base.toNat = none) :
    exec (.mm g pair z u la a b vs) s =
      .next (occupied s th (mmJob pair.val z u false (base.toNat - windowBase) (th.getX b).toNat vs s th)
        ((mmGranules pair.val u false (base.toNat - windowBase) (th.getX b).toNat).map
          (captureAccess th (coreOfKey s.cur)))) := by
  rw [exec_mm, execMm]
  refine issue_done hi ?_
  dsimp only
  rw [hfree, if_neg Bool.false_ne_true,
    mmRes_of_checked hbase halign hps (fun _ => hfirst) hgranules]

/-! ## MMR -/

theorem operandBytes_mem {pair : Fin 22} (h : pair.val < 15) (u : Bool) :
    operandBytes pair.val (pairFmtA pair.val u) ∈ [2048, 1536, 1024] := by
  revert pair u
  decide

theorem operandBytes_le {pair : Fin 22} (h : pair.val < 15) (u : Bool) :
    operandBytes pair.val (pairFmtA pair.val u) ≤ 2048 := by
  have hall : ∀ n ∈ [2048, 1536, 1024], n ≤ 2048 := by decide
  exact hall _ (operandBytes_mem h u)

/-- A latch and an operand within it have the granules of the latch. -/
theorem length_latchGranules : ∀ n ∈ [2048, 1536, 1024],
    (granulesOf [(latchOffset false, n), (latchOffset false, 2048), (latchOffset true, 2048)]).length = 64 := by
  decide +kernel

theorem captureCheck_latch {s : State} {th : Thread} {i : Instr} {n x : Nat} (hn : n ≤ 2048)
    (hx : x ∈ granulesOf [(windowBase + latchOffset false, n)]) : captureCheck s th i true x = none := by
  obtain ⟨halign, r, hr, hlo, hhi⟩ := mem_granulesOf.1 hx
  rw [List.mem_singleton.1 hr] at hlo hhi
  simp only [windowBase, latchOffset, Bool.false_eq_true, if_false] at hlo hhi
  rw [captureCheck, if_pos rfl, if_pos]
  rw [Bool.and_eq_true, decide_eq_true_eq, decide_eq_true_eq]
  simp only [windowBase, latchOffset, Bool.false_eq_true, if_false]
  exact ⟨by omega, by omega⟩

/-- The captures of an MMR are the granules of both latches. -/
theorem mem_mmrGranules {pair : Fin 22} (hpair : pair.val < 15) {u : Bool} {ps x : Nat} :
    x ∈ mmGranules pair.val u true (latchOffset false) ps ↔ x % 64 = 0 ∧
      ∃ r ∈ [(latchOffset false, 2048), (latchOffset true, 2048)], r.1 / 64 ≤ x / 64 ∧ x / 64 ≤ (r.1 + r.2 - 1) / 64 := by
  have hle := operandBytes_le hpair u
  rw [mmGranules, if_pos rfl, rangesA, if_neg (by omega), mem_granulesOf]
  simp only [List.cons_append, List.nil_append, List.mem_cons, List.not_mem_nil, or_false, exists_eq_or_imp,
    exists_eq_left]
  omega

theorem mmr_issues {s : State} {th : Thread} {g : Guard} {pair : Fin 22} {z : ZTile} {u : Bool} {b vs : Reg}
    (hi : Issues (.mmr g pair z u b vs) s th) (hpair : pair.val < 15)
    (hfree : (s.core (coreOfKey s.cur)).unitBusy = false)
    (hfullA : (s.core (coreOfKey s.cur)).tfullA = true) (hfullB : (s.core (coreOfKey s.cur)).tfullB = true) :
    exec (.mmr g pair z u b vs) s =
      .next (occupied s th (mmJob pair.val z u true (latchOffset false) (th.getX b).toNat vs s th)
        ((mmGranules pair.val u true (latchOffset false) (th.getX b).toNat).map
          (captureAccess th (coreOfKey s.cur)))) := by
  have hbase : (BitVec.ofNat 64 (windowBase + latchOffset false)).toNat = windowBase + latchOffset false := by decide
  have hgranules : ∀ x ∈ granulesOf (rangesA pair.val u (BitVec.ofNat 64 (windowBase + latchOffset false)).toNat
      (th.getX b).toNat), captureCheck s th (.mmr g pair z u b vs) true x = none := by
    rw [hbase, rangesA, if_neg (by omega)]
    exact fun x hx => captureCheck_latch (operandBytes_le hpair u) hx
  rw [exec_mmr, execMmr]
  refine issue_done hi ?_
  dsimp only
  rw [hfree, hfullA, hfullB, if_neg (by decide),
    mmRes_of_checked (if_pos rfl) (by decide) (by omega) (fun h => absurd h.symm Bool.false_ne_true) hgranules, hbase,
    Nat.add_sub_cancel_left]

theorem mmr_need {pair : Fin 22} (hpair : pair.val < 15) (u : Bool) (ps : Nat) :
    (mmGranules pair.val u true (latchOffset false) ps).length = 64 := by
  rw [mmGranules, if_pos rfl, rangesA, if_neg (by omega)]
  exact length_latchGranules _ (operandBytes_mem hpair u)

/-! ## LATCH and ZLD -/

/-- LATCH.B or LATCH.A. -/
def latchInstr (right : Bool) (g : Guard) (a : Reg) : Instr := if right then .latchB g a else .latchA g a

theorem exec_latchInstr (right : Bool) (g : Guard) (a : Reg) (s : State) :
    exec (latchInstr right g a) s = issue (latchInstr right g a) s (latchRes (latchInstr right g a) right a) := by
  cases right
  · exact exec_latchA g a s
  · exact exec_latchB g a s

theorem latch_issues {s t : State} {th : Thread} {g : Guard} {a : Reg} {right : Bool} {l : List Access}
    (hi : Issues (latchInstr right g a) s th)
    (hd : th.overlapDeferred (th.getX a).toNat (64 * 32) = false) (hw : th.overlapWait (th.getX a).toNat (64 * 32) = false)
    (hjob : ∀ x ∈ (s.core (coreOfKey s.cur)).latchJob, x.1 ≠ right)
    (hreads : bulkReads (latchInstr right g a) th (th.getX a).toNat
      (fun n => granuleDesc 4 (if right then 4 else 3) 0 0 n) (fun n => .latch right (64 * n)) (th.getTaint a)
      (List.range 32) s = .ok (t, l, none)) :
    exec (latchInstr right g a) s =
      .next ((t.setCore (coreOfKey s.cur) { t.core (coreOfKey s.cur) with
        latchJob := (t.core (coreOfKey s.cur)).latchJob ++ [(right, s.cur)] }).setThread s.cur ((th.addAll l).next 4)) := by
  have hfind : (s.core (coreOfKey s.cur)).latchJob.find? (·.1 == right) = none :=
    List.find?_eq_none.2 fun x hx => by simpa using hjob x hx
  rw [exec_latchInstr]
  refine issue_done hi ?_
  rw [latchRes, hfind]
  dsimp only
  rw [withBulk_of_ok hd hw hreads, setCore_cur, (bulkReads_loads hreads).1]

/-- What the accesses of a bulk read of `n` granules are, by their number. -/
theorem bulkReads_get {i : Instr} {th : Thread} {base m : Nat} {desc : Nat → Nat} {dst : Nat → Dst} {taint : Bool}
    {s t : State} {l : List Access} {move : Option Nat}
    (h : bulkReads i th base desc dst taint (List.range m) s = .ok (t, l, move)) :
    l.length = m ∧ ∀ n : Nat, n < m → ∃ x : Access, l[n]? = some x ∧ x.op = .load ∧ x.size = 64 ∧ x.dst = dst n := by
  have hall := (bulkReads_loads h).2
  have hlen : l.length = m := by rw [← hall.length_eq, List.length_range]
  refine ⟨hlen, fun n hn => ⟨l[n], List.getElem?_eq_getElem (hlen ▸ hn), ?_⟩⟩
  have hload := hall.get (by simpa using hn) (hlen ▸ hn)
  simp only [List.get_eq_getElem, List.getElem_range] at hload
  exact hload

theorem zld_issues {s t : State} {th : Thread} {g : Guard} {z : ZTile} {a : Reg} {fmt : Fin 32} {l : List Access}
    (hi : Issues (.zld g z a fmt) s th)
    (hfree : (s.core (coreOfKey s.cur)).unitBusy = false)
    (hd : th.overlapDeferred (th.getX a).toNat (64 * (2 * fmtWidth fmt.val)) = false)
    (hw : th.overlapWait (th.getX a).toNat (64 * (2 * fmtWidth fmt.val)) = false)
    (hreads : bulkReads (.zld g z a fmt) th (th.getX a).toNat (fun n => granuleDesc 5 2 z.val fmt.val n)
      (fun n => .unit (64 * n)) (th.getTaint a) (List.range (2 * fmtWidth fmt.val)) s = .ok (t, l, none)) :
    exec (.zld g z a fmt) s = .next ((t.setCore (coreOfKey s.cur) { t.core (coreOfKey s.cur) with
      mx := some ⟨.zld z fmt.val, some (s.cur % 4), [], 2 * fmtWidth fmt.val, [], false⟩ }).setThread s.cur
        ((th.addAll l).next 4)) := by
  rw [exec_zld, execZld]
  refine issue_done hi ?_
  dsimp only
  rw [hfree, if_neg Bool.false_ne_true, withBulk_of_ok hd hw hreads, setCore_cur,
    (bulkReads_loads hreads).1]

/-! ## ZST -/

theorem zst_issues {s t t' : State} {th : Thread} {g : Guard} {z : ZTile} {a : Reg} {fmt : Fin 32}
    {bs scales : List Byte} {r : Raised} {l l' : List Access} (hi : Issues (.zst g z a fmt) s th)
    (hfree : (s.core (coreOfKey s.cur)).unitBusy = false)
    (hout : zstBytes fmt.val (s.tile (coreOfKey s.cur) z) = (bs, scales, r))
    (hd : th.overlapDeferred (th.getX a).toNat (bs.length + scales.length) = false)
    (hw : th.overlapWait (th.getX a).toNat (bs.length + scales.length) = false)
    (hcheck : zstCheck (.zst g z a fmt) th z fmt.val (zstGranules (th.getX a).toNat bs scales) s = ⟨t, l, none, none⟩)
    (hhost : ∀ x ∈ l, x.place = .line → s.hostWaits th.part (dieOfCore (coreOfKey s.cur)) x.va = false)
    (hwalks : zstWalks s.cur th l t = (t', l', none)) :
    exec (.zst g z a fmt) s = .next (t'.setThread s.cur (((th.addAll l').raise r).next 4)) := by
  have hcur : t'.cur = s.cur := (zstWalks_of_passed hwalks).2.trans (zstCheck_stores hcheck).1
  have hany : (l.any fun x => x.place == .line && s.hostWaits th.part (dieOfCore (coreOfKey s.cur)) x.va) = false := by
    simpa using hhost
  rw [exec_zst, execZst]
  refine issue_done hi ?_
  dsimp only
  rw [hfree, if_neg Bool.false_ne_true, zstRes, hout]
  dsimp only
  rw [hd, hw, hcheck]
  dsimp only
  rw [hany, hwalks]
  simp [hcur]

/-- The stores of a ZST whose granules all pass: their number, and the granule of each. -/
theorem zst_stores {i : Instr} {th : Thread} {z : ZTile} {fmt base : Nat} {tile : List Nat} {bs scales : List Byte}
    {r : Raised} {s t : State} {l : List Access} {move : Option Nat} (hfmt : zstFormats.contains fmt = true)
    (htile : tile.length = 1024) (hout : zstBytes fmt tile = (bs, scales, r))
    (hcheck : zstCheck i th z fmt (zstGranules base bs scales) s = ⟨t, l, none, move⟩) :
    l.length = ((bs ++ scales).length + 63) / 64 ∧
    ∀ (n : Nat) (x : Access), l[n]? = some x →
      StoresGranule ⟨n, (base + 64 * n) % 2 ^ 64, ((bs ++ scales).drop (64 * n)).take 64⟩ x ∧
      ((s.core (coreOfKey s.cur)).contours = [] → x.data = ((bs ++ scales).drop (64 * n)).take 64) := by
  obtain ⟨hlen, hscales⟩ : bs.length = 128 * fmtWidth fmt ∧ scales.length ≤ 32 := by
    simpa [hout] using length_zstBytes fmt htile
  have hwidth := fmtWidth_le_of_zstFormats hfmt
  have hget := zstGranules_get (base := base) (bs := bs) (scales := scales) (by omega) (by omega) (by omega)
  have hall := (zstCheck_stores hcheck).2
  refine ⟨hall.length_eq ▸ length_of_get hget, fun n x hx => ?_⟩
  obtain ⟨hn, rfl⟩ := List.getElem?_eq_some_iff.1 hx
  have hn' := hall.length_eq ▸ hn
  have hgranule := hget n
  rw [List.getElem?_eq_getElem hn'] at hgranule
  split at hgranule
  next =>
    have hstore := hall.get hn' hn
    simp only [List.get_eq_getElem, Option.some.inj hgranule] at hstore
    exact hstore
  next => cases hgranule

/-! ## ZCLR -/

theorem leNat_zeros (n : Nat) : leNat (List.replicate n 0) = 0 := by
  induction n with
  | zero => rfl
  | succ n ih => rw [List.replicate_succ, leNat, ih]; rfl

theorem readBytes_congr {m m' : Memory} {a n : Nat} (h : ∀ i, i < n → m.read (a + i) = m'.read (a + i)) :
    m.readBytes a n = m'.readBytes a n := by
  induction n generalizing a with
  | zero => rfl
  | succ n ih =>
    rw [Memory.readBytes, Memory.readBytes, ← Nat.add_zero a, h 0 (by omega), Nat.add_zero,
      ih fun i hi => by rw [Nat.add_assoc, h (1 + i) (by omega)]]

/-- A tile that a store does not reach is as it was. -/
theorem tile_store_of_disjoint {s : State} {a c : Nat} {z : ZTile} {bs : List Byte}
    (h : ztilePlace c z 4096 ≤ a ∨ a + bs.length ≤ ztilePlace c z 0) : (s.store a bs).tile c z = s.tile c z := by
  have hread : (s.store a bs).load (ztilePlace c z 0) 4096 = s.load (ztilePlace c z 0) 4096 := by
    refine readBytes_congr fun i hi => (store_mem s a bs).2 _ ?_
    simp only [ztilePlace, windowPlace] at h ⊢
    omega
  rw [State.tile, hread, State.tile]

theorem tile_clear (s : State) (c : Nat) (z : ZTile) :
    (s.store (ztilePlace c z 0) (List.replicate 4096 0)).tile c z = List.replicate 1024 0 := by
  have hload := load_store s (ztilePlace c z 0) (List.replicate 4096 0)
  rw [List.length_replicate] at hload
  rw [State.tile, hload, leNat_zeros, codesOf]
  simp [List.map_const']

theorem zclr_issues {s : State} {th : Thread} {g : Guard} {z : ZTile} (hi : Issues (.zclr g z) s th)
    (hfree : (s.core (coreOfKey s.cur)).unitBusy = false) :
    exec (.zclr g z) s = .next ((s.store (ztilePlace (coreOfKey s.cur) z 0) (List.replicate 4096 0)).setThread s.cur
      (th.next 4)) := by
  rw [exec_zclr, execZclr]
  refine issue_done hi ?_
  dsimp only
  rw [hfree, if_neg Bool.false_ne_true]

theorem next_acc (th : Thread) (n : Nat) : (th.next n).acc = th.acc := by
  unfold Thread.next Thread.step Thread.stepLevel0
  dsimp only
  split_ifs <;> rfl

theorem zclr_clears (s : State) (th : Thread) (c : Nat) (z : ZTile) :
    let t := (s.store (ztilePlace c z 0) (List.replicate 4096 0)).setThread s.cur (th.next 4)
    (∀ a : Nat, t.mem.read a = if ztilePlace c z 0 ≤ a ∧ a < ztilePlace c z 4096 then 0 else s.mem.read a) ∧
    t.tile c z = List.replicate 1024 0 ∧ ∀ y : ZTile, y ≠ z → t.tile c y = s.tile c y := by
  refine ⟨fun a => ?_, tile_clear s c z, fun y hy => tile_store_of_disjoint (s := s) ?_⟩
  · show (s.mem.write _ _).read a = _
    rw [read_write, List.length_replicate]
    have hend : ztilePlace c z 0 + 4096 = ztilePlace c z 4096 := by simp only [ztilePlace, windowPlace]; omega
    rw [hend]
    split
    · rw [List.getElem?_replicate]
      split <;> rfl
    · rfl
  · have hne : y.val ≠ z.val := Fin.val_ne_of_ne hy
    simp only [ztilePlace, windowPlace, List.length_replicate]
    omega

/-! ## The statement -/

/-- Settles O45: each instruction's issue, with the granules it captures, loads or stores. -/
theorem matrixIssue : Obligations.MatrixIssue := by
  intro s th g z a b vs c k unit clear captures
  refine ⟨?_, ?_, ?_, ?_, ?_, ?_⟩
  · intro pair u la base off ps i hi hmx hpass halign hwindow hps hgranules hfirst
    have hfree := unitBusy_eq_false hmx hpass
    exact ⟨_, _, mm_issues hi rfl hfree halign hps hgranules hfirst, fun x => mem_granulesOf, rfl, rfl,
      rfl, rfl, rfl, fun n q hlo hhi hn hq => scaleByte_scaleBytes (by rw [scaleSpan]; split_ifs at hn ⊢ <;> omega) hq vs th⟩
  · intro pair u i hi hpair hmx hpass hfullA hfullB
    have hfree := unitBusy_eq_false hmx hpass
    exact ⟨_, _, mmr_issues hi hpair hfree hfullA hfullB, fun x => mem_mmrGranules hpair, rfl,
      rfl, rfl, mmr_need hpair u _, rfl⟩
  · intro right t l i base hi hclear hjob hreads
    exact ⟨latch_issues hi hclear.1 hclear.2 hjob hreads, bulkReads_get hreads⟩
  · intro fmt t l i hi hmx hpass hclear hreads
    have hfree := unitBusy_eq_false hmx hpass
    exact ⟨_, zld_issues hi hfree hclear.1 hclear.2 hreads, rfl, rfl, rfl, rfl,
      (bulkReads_get hreads).1⟩
  · intro fmt t t' l l' i out bs hi hwf hmx hpass hd hw hcheck hhost hwalks
    have hfree := unitBusy_eq_false hmx hpass
    rw [List.length_append] at hd hw
    have hout : zstBytes fmt.val (s.tile c z) = (out.1, out.2.1, out.2.2) := rfl
    obtain ⟨hlen, hstores⟩ := zst_stores hwf (length_tile s c z) hout hcheck
    refine ⟨zst_issues hi hfree hout hd hw hcheck hhost hwalks, (zstWalks_of_passed hwalks).1, hlen,
      fun n x hx => ?_⟩
    obtain ⟨⟨hop, hinfo, hsize, hhome, hord, hdst, hstate⟩, hdata⟩ := hstores n x hx
    exact ⟨hop, hinfo, by rw [hsize, List.length_take, List.length_drop], hhome, hord, hdst, hstate, hdata⟩
  · intro hi hmx hpass
    have hfree := unitBusy_eq_false hmx hpass
    obtain ⟨hmem, htile, hothers⟩ := zclr_clears s th c z
    refine ⟨_, zclr_issues hi hfree, hmem, htile, ?_, hothers, thread_setThread .., next_acc th 4, rfl, rfl, rfl⟩
    rw [htile]
    intro x hx
    rw [List.eq_of_mem_replicate hx]
    exact ⟨⟨_, rfl⟩, rfl⟩

end Sys2Proof.Matrix
end
